-- ==== Sys2Proof/Word.lean ====
section
/-! DEFINITION. The plain words of the SX-24's manual: bytes, head times, addresses. -/

namespace Sys2Proof

/-- A byte of frame memory, of a cell, or of an uplink frame. -/
abbrev Byte := BitVec 8

/-- Head time: a 32-bit count of ticks that wraps (R101). -/
abbrev HeadTime := BitVec 32

/-- A byte address of frame memory (section 1.1: 34 bits). -/
abbrev Addr := BitVec 34

/-- The tag a base station gives a queued order (R169). -/
abbrev Tag := BitVec 16

/-- A frame number, 0 … 16,777,215 (R77). -/
abbrev FrameNo := BitVec 24

end Sys2Proof
end

