-- ==== Sys2Proof/Config.lean ====
section
/-! DEFINITION. The values the manual leaves open. They have no body: a claim holds whatever they are. -/

namespace Sys2Proof

/-- Which of several events due at one head time is taken first: the manual gives the outcome for each order
(00_scope, Times that come together) and fixes none. Applied to `Dev.freeCount`. DESIGN CHOICE, log 3. -/
opaque Config.tieOrder : Nat → Nat

/-- Whether a held REPLAY-END is offered before a held RESPONSE when one CONTROL cell frees the queue:
R171 says that either may stand first. Applied to `Dev.freeCount`. DESIGN CHOICE, log 12. -/
opaque Config.endFirst : Nat → Bool

end Sys2Proof
end

