-- ==== Sys2Proof/Syntax.lean ====
section
/-! DEFINITION. The commands of the SX-24: one constructor per row of spec/opcode_table.json, with the row's operands. -/

namespace Sys2Proof

/-- The MEM-SIZE strap (section 1.4). -/
inductive MemSize where
  | gib2 | gib4 | gib8 | gib16
  deriving DecidableEq, Repr

/-- The LINK-RATE strap: settings 0 … 3 (R144). -/
inductive LinkRate where
  | setting0 | setting1 | setting2 | setting3
  deriving DecidableEq, Repr

/-- The four straps, as sampled at the release of device reset (section 1.4). -/
structure Straps where
  planBase : BitVec 4
  memSize : MemSize
  linkRate : LinkRate
  remoteEn : Bool
  deriving DecidableEq, Repr

/-- A request on either port: a read, or a write that carries all of its bytes (section 1.1). -/
inductive BusOp where
  | read (addr : Addr) (len : Nat)
  | write (addr : Addr) (bytes : List Byte)
  deriving DecidableEq, Repr

/-- The memory's one response to a request: the bytes read, completion of a write, or an error (section 1.1). -/
inductive MemReply where
  | data (bytes : List Byte)
  | done
  | error
  deriving DecidableEq, Repr

/-- An order as the order queue holds it: its kind byte and its body (R169). -/
structure RawOrder where
  kind : Byte
  body : List Byte
  deriving DecidableEq, Repr

/-- The commands (events and orders) of spec/opcode_table.json. `tag : Tag` is an order's tag; `reqTag : Nat` is the
tag that the memory side port gave a request (R3). -/
inductive Instr where
  | resetAssert
  | deviceReset (straps : Straps)
  | headSideRequest (ident : Nat) (op : BusOp)
  | grantDecision
  | stagingWrite (off : BitVec 16) (bytes : List Byte)
  | commit (word : BitVec 32)
  | attentionAck (causes : BitVec 32)
  | returnConsumed (addr : BitVec 64)
  | memoryResponse (reqTag : Nat) (reply : MemReply)
  | parkedAssert
  | parkedWithdraw
  | reportTimer
  | reportWriteDone (reqTag : Nat) (reply : MemReply)
  | anchorEvent
  | capture
  | frameStartEnd
  | tileDeadlineExpiry (ctx : Nat) (tile : Nat)
  | echoTimer
  | headStatusTimer
  | referenceLossDeadline
  | uplinkFrameStart
  | uplinkFrame (bytes : List Byte)
  | missingFrameExpiry
  | reference (count : BitVec 32) (arrival : HeadTime)
  | echoReturn (seq : BitVec 16) (stamp : HeadTime) (turnaround : BitVec 32) (arrival : HeadTime)
  | credit (n : BitVec 8)
  | returnData (bytes : List Byte)
  | gateRun (tag : Tag)
  | gatePause (tag : Tag)
  | gateStep (tag : Tag)
  | gateMark (tag : Tag) (n : BitVec 16)
  | replay (tag : Tag) (frame : FrameNo) (first : BitVec 16) (count : BitVec 16) (paced : Bool)
  | cancelCurrent (tag : Tag)
  | cancelAll (tag : Tag)
  | hold (tag : Tag) (frame : FrameNo)
  | release (tag : Tag) (frame : FrameNo)
  | releaseAll (tag : Tag)
  | clear (tag : Tag)
  | watchSet (tag : Tag) (id : BitVec 8) (addr : BitVec 40) (len : BitVec 8) (mode : BitVec 8)
  | watchSeedDone (reqTag : Nat) (reply : MemReply)
  | watchClear (tag : Tag) (id : BitVec 8)
  | page (tag : Tag) (n : BitVec 16)
  | point (tag : Tag) (addr : BitVec 40)
  | read (tag : Tag) (offset : BitVec 24) (count : BitVec 8)
  | write (tag : Tag) (offset : BitVec 24) (bytes : List Byte)
  | readNext (tag : Tag) (count : BitVec 8)
  | writeNext (tag : Tag) (bytes : List Byte)
  | maskWrite (tag : Tag) (offset : BitVec 24) (value : List Byte) (mask : List Byte)
  | maskWriteReadDone (reqTag : Nat) (reply : MemReply)
  | remoteAccessDone (reqTag : Nat) (reply : MemReply)
  | responseOffer
  | liveFetchBegin
  | replayFetchBegin
  | lineFetchResponse (reqTag : Nat) (reply : MemReply)
  | replayEndOffer
  | cellBoundary
  | drainWriteBegin
  | drainWriteDone (reqTag : Nat) (reply : MemReply)
  | gateUnknownAction (tag : Tag) (action : BitVec 8)
  deriving DecidableEq, Repr

end Sys2Proof
end

