-- ==== Sys2Proof/WellFormed.lean ====
section
/-! DEFINITION. Which commands the manual's outside parties can send: lengths and ranges of the operands. -/

namespace Sys2Proof

/-- A request is 1 … 256 bytes long (section 1.1). -/
def BusOp.wf : BusOp → Bool
  | .read _ len => 1 ≤ len && len ≤ 256
  | .write _ bytes => 1 ≤ bytes.length && bytes.length ≤ 256

/-- A read response carries at most the 256 bytes of the longest request (section 1.1). -/
def MemReply.wf : MemReply → Bool
  | .data bytes => 1 ≤ bytes.length && bytes.length ≤ 256
  | .done => true
  | .error => true

/-- The operands of a command lie in the ranges the manual gives them. -/
def Instr.wf : Instr → Bool
  | .headSideRequest _ op => op.wf
  | .stagingWrite off bytes => 1 ≤ bytes.length && bytes.length ≤ 256 && off.toNat + bytes.length ≤ 65536
  | .memoryResponse _ reply => reply.wf
  | .reportWriteDone _ reply => reply.wf
  | .watchSeedDone _ reply => reply.wf
  | .maskWriteReadDone _ reply => reply.wf
  | .remoteAccessDone _ reply => reply.wf
  | .lineFetchResponse _ reply => reply.wf
  | .drainWriteDone _ reply => reply.wf
  | .tileDeadlineExpiry ctx tile => ctx < 2 && tile < 8
  | .uplinkFrame bytes => bytes.length = 256
  | .returnData bytes => 1 ≤ bytes.length && bytes.length ≤ 240
  | .write _ _ bytes => 1 ≤ bytes.length && bytes.length ≤ 64
  | .writeNext _ bytes => 1 ≤ bytes.length && bytes.length ≤ 64
  | .maskWrite _ _ value mask => 1 ≤ value.length && value.length ≤ 8 && mask.length = value.length
  | .gateUnknownAction _ action => 4 ≤ action.toNat
  | .resetAssert | .deviceReset _ | .grantDecision | .commit _ | .attentionAck _ | .returnConsumed _
  | .parkedAssert | .parkedWithdraw | .reportTimer | .anchorEvent | .capture | .frameStartEnd
  | .echoTimer | .headStatusTimer | .referenceLossDeadline | .uplinkFrameStart | .missingFrameExpiry
  | .reference _ _ | .echoReturn _ _ _ _ | .credit _ | .gateRun _ | .gatePause _ | .gateStep _
  | .gateMark _ _ | .replay _ _ _ _ _ | .cancelCurrent _ | .cancelAll _ | .hold _ _ | .release _ _
  | .releaseAll _ | .clear _ | .watchSet _ _ _ _ _ | .watchClear _ _ | .page _ _ | .point _ _
  | .read _ _ _ | .readNext _ _ | .responseOffer | .liveFetchBegin | .replayFetchBegin
  | .replayEndOffer | .cellBoundary | .drainWriteBegin => true

end Sys2Proof
end

