-- ==== Sys2Proof/Decode.lean ====
section
/-! DEFINITION. Reading a command from bits. The opcode table gives no row any bits, so no word of it spells a command;
the queued orders of the uplink have bytes (R197, R198), which `decodeOrder` reads and `encodeOrder` writes. -/

namespace Sys2Proof

/-- The command a word of the opcode table spells: none, since no row of the table has bits. -/
def decodeTableWord (_nbits _w : Nat) : Option Instr := none

/-- A little-endian number: the first byte is the least significant (R194). -/
def leNat : List Byte → Nat
  | [] => 0
  | b :: bs => b.toNat + 256 * leNat bs

/-- The `n` little-endian bytes of a number (R194). -/
def leBytes : Nat → Nat → List Byte
  | 0, _ => []
  | n + 1, v => BitVec.ofNat 8 v :: leBytes n (v / 256)

/-- The `n` bytes of `body` from position `off`, read as a number (R194, R197). -/
def bodyField (body : List Byte) (off n : Nat) : Nat := leNat ((body.drop off).take n)

/-- The allowed body lengths of the order table (section 9.6); false for a kind that names no order (R165, R197). -/
def orderLengthOk (kind len : Nat) : Bool :=
  match kind with
  | 0x01 => len = 4
  | 0x02 => len = 10
  | 0x03 => len = 1
  | 0x04 => 1 ≤ len && len ≤ 240
  | 0x10 => len = 5
  | 0x11 => len = 10
  | 0x12 => len = 3
  | 0x13 => len = 5
  | 0x14 => len = 6
  | 0x15 => len = 2
  | 0x20 => len = 10
  | 0x21 => len = 3
  | 0x30 => len = 4
  | 0x31 => len = 7
  | 0x32 => len = 6
  | 0x33 => 6 ≤ len && len ≤ 69
  | 0x34 => len = 3
  | 0x35 => 3 ≤ len && len ≤ 66
  | 0x36 => 7 ≤ len && len ≤ 21 && len % 2 = 1
  | _ => false

/-- The GATE order by its action byte (R198): the count is read only for MARK. -/
def decodeGate (tag : Tag) (body : List Byte) : Instr :=
  match bodyField body 2 1 with
  | 0 => .gateRun tag
  | 1 => .gatePause tag
  | 2 => .gateStep tag
  | 3 => .gateMark tag (.ofNat 16 (bodyField body 3 2))
  | _ => .gateUnknownAction tag (.ofNat 8 (bodyField body 2 1))

/-- The order a queued kind and body spell (R197, R198). Bits that R198 calls ignored are not read. -/
def decodeOrder (o : RawOrder) : Option Instr :=
  let body := o.body
  let tag : Tag := .ofNat 16 (bodyField body 0 2)
  let bit (off : Nat) : Bool := bodyField body off 1 % 2 = 1
  if orderLengthOk o.kind.toNat body.length = false then none
  else match o.kind.toNat with
  | 0x10 => some (decodeGate tag body)
  | 0x11 => some (.replay tag (.ofNat 24 (bodyField body 2 3)) (.ofNat 16 (bodyField body 5 2))
      (.ofNat 16 (bodyField body 7 2)) (bit 9))
  | 0x12 => some (if bit 2 then .cancelAll tag else .cancelCurrent tag)
  | 0x13 => some (.hold tag (.ofNat 24 (bodyField body 2 3)))
  | 0x14 => some (if bit 5 then .releaseAll tag else .release tag (.ofNat 24 (bodyField body 2 3)))
  | 0x15 => some (.clear tag)
  | 0x20 => some (.watchSet tag (.ofNat 8 (bodyField body 2 1)) (.ofNat 40 (bodyField body 3 5))
      (.ofNat 8 (bodyField body 8 1)) (.ofNat 8 (bodyField body 9 1)))
  | 0x21 => some (.watchClear tag (.ofNat 8 (bodyField body 2 1)))
  | 0x30 => some (.page tag (.ofNat 16 (bodyField body 2 2)))
  | 0x31 => some (.point tag (.ofNat 40 (bodyField body 2 5)))
  | 0x32 => some (.read tag (.ofNat 24 (bodyField body 2 3)) (.ofNat 8 (bodyField body 5 1)))
  | 0x33 => some (.write tag (.ofNat 24 (bodyField body 2 3)) (body.drop 5))
  | 0x34 => some (.readNext tag (.ofNat 8 (bodyField body 2 1)))
  | 0x35 => some (.writeNext tag (body.drop 2))
  | 0x36 =>
    let n := (body.length - 5) / 2
    some (.maskWrite tag (.ofNat 24 (bodyField body 2 3)) ((body.drop 5).take n) (body.drop (5 + n)))
  | _ => none

/-- The bytes of a queued order, written from the order table of R197 (ignored bits and bytes 0). -/
def encodeOrder : Instr → Option RawOrder
  | .gateRun tag => some ⟨0x10, leBytes 2 tag.toNat ++ [0, 0, 0]⟩
  | .gatePause tag => some ⟨0x10, leBytes 2 tag.toNat ++ [1, 0, 0]⟩
  | .gateStep tag => some ⟨0x10, leBytes 2 tag.toNat ++ [2, 0, 0]⟩
  | .gateMark tag n => some ⟨0x10, leBytes 2 tag.toNat ++ [3] ++ leBytes 2 n.toNat⟩
  | .gateUnknownAction tag action => some ⟨0x10, leBytes 2 tag.toNat ++ [action, 0, 0]⟩
  | .replay tag frame first count paced => some ⟨0x11, leBytes 2 tag.toNat ++ leBytes 3 frame.toNat ++
      leBytes 2 first.toNat ++ leBytes 2 count.toNat ++ [if paced then 1 else 0]⟩
  | .cancelCurrent tag => some ⟨0x12, leBytes 2 tag.toNat ++ [0]⟩
  | .cancelAll tag => some ⟨0x12, leBytes 2 tag.toNat ++ [1]⟩
  | .hold tag frame => some ⟨0x13, leBytes 2 tag.toNat ++ leBytes 3 frame.toNat⟩
  | .release tag frame => some ⟨0x14, leBytes 2 tag.toNat ++ leBytes 3 frame.toNat ++ [0]⟩
  | .releaseAll tag => some ⟨0x14, leBytes 2 tag.toNat ++ [0, 0, 0, 1]⟩
  | .clear tag => some ⟨0x15, leBytes 2 tag.toNat⟩
  | .watchSet tag id addr len mode =>
      some ⟨0x20, leBytes 2 tag.toNat ++ [id] ++ leBytes 5 addr.toNat ++ [len, mode]⟩
  | .watchClear tag id => some ⟨0x21, leBytes 2 tag.toNat ++ [id]⟩
  | .page tag n => some ⟨0x30, leBytes 2 tag.toNat ++ leBytes 2 n.toNat⟩
  | .point tag addr => some ⟨0x31, leBytes 2 tag.toNat ++ leBytes 5 addr.toNat⟩
  | .read tag offset count => some ⟨0x32, leBytes 2 tag.toNat ++ leBytes 3 offset.toNat ++ [count]⟩
  | .write tag offset bytes => some ⟨0x33, leBytes 2 tag.toNat ++ leBytes 3 offset.toNat ++ bytes⟩
  | .readNext tag count => some ⟨0x34, leBytes 2 tag.toNat ++ [count]⟩
  | .writeNext tag bytes => some ⟨0x35, leBytes 2 tag.toNat ++ bytes⟩
  | .maskWrite tag offset value mask =>
      some ⟨0x36, leBytes 2 tag.toNat ++ leBytes 3 offset.toNat ++ value ++ mask⟩
  | .resetAssert | .deviceReset _ | .headSideRequest _ _ | .grantDecision | .stagingWrite _ _ | .commit _
  | .attentionAck _ | .returnConsumed _ | .memoryResponse _ _ | .parkedAssert | .parkedWithdraw | .reportTimer
  | .reportWriteDone _ _ | .anchorEvent | .capture | .frameStartEnd | .tileDeadlineExpiry _ _ | .echoTimer
  | .headStatusTimer | .referenceLossDeadline | .uplinkFrameStart | .uplinkFrame _ | .missingFrameExpiry
  | .reference _ _ | .echoReturn _ _ _ _ | .credit _ | .returnData _ | .watchSeedDone _ _
  | .maskWriteReadDone _ _ | .remoteAccessDone _ _ | .responseOffer | .liveFetchBegin | .replayFetchBegin
  | .lineFetchResponse _ _ | .replayEndOffer | .cellBoundary | .drainWriteBegin | .drainWriteDone _ _ => none

end Sys2Proof
end

