-- ==== Sys2Proof/Machine/State.lean ====
section
/-! DEFINITION. The state of the SX-24: every register, queue, buffer, counter and line the manual names, as plain data. -/

namespace Sys2Proof.Machine

/-- Why the model stops. -/
inductive Fault where
  /-- Raised by every command that carries a memory response, when the response does not have the form of an answer to
  its request: a read answered with another number of bytes or with a completion, a write answered with data. Section 1.1
  gives the memory no such answer and the part no behaviour for one. SAFE: the model stops where the manual is silent. -/
  | malformedReply
  deriving DecidableEq, Repr

/-- Why the model gives a command no meaning. -/
inductive Refusal where
  /-- Raised by exec's arm of a command that has no meaning yet. SAFE. No arm uses it. -/
  | notModelled (mnemonic : String)
  deriving DecidableEq, Repr

/-- An addressed buffer of the block: (offset, byte) pairs with offsets strictly rising and no byte 0 listed.
An unlisted offset reads 0, the value the manual gives at reset (R18, R28). -/
abbrev Memory := List Host.Cell

/-! ### Plans (section 2.1, R199) -/

/-- Conceal mode (R126). -/
inductive Conceal where
  | repeatLine | black | raw
  deriving DecidableEq, Repr

/-- Live order (R132, R133). -/
inductive LiveOrder where
  | raster | arrival
  deriving DecidableEq, Repr

/-- Source (R128). -/
inductive Source where
  | sensor | test
  deriving DecidableEq, Repr

/-- A strip: first line Y, height, and whether it is read UP (section 3.1). -/
structure Strip where
  first : Nat
  height : Nat
  up : Bool
  deriving DecidableEq, Repr

/-- A tile (section 3.1). -/
structure Tile where
  strip : Nat
  lead : Nat
  mirror : Bool
  offset : Nat
  pitch : Nat
  cols : Nat
  trimLeft : Nat
  trimRight : Nat
  x : Nat
  deriving DecidableEq, Repr

/-- A plan: the fields of section 2.1 as numbers, with the strips and tiles that the counts name. -/
structure Plan where
  ringBase : Nat
  stride : Nat
  slots : Nat
  speed : Nat
  lockWindow : Nat
  period : Nat
  advance : Nat
  width : Nat
  height : Nat
  bpp : Nat
  conceal : Conceal
  order : LiveOrder
  source : Source
  rowUnit : Nat
  rowCount : Nat
  startAllowance : Nat
  retStart : Nat
  retEnd : Nat
  strips : List Strip
  tiles : List Tile
  deriving DecidableEq, Repr

/-- The eight validation groups (R20). -/
inductive Group where
  | ring | slots | speed | period | format | strips | tiles | ret
  deriving DecidableEq, Repr

/-- The fields a commit clamped (R23). -/
structure ClampSet where
  advance : Bool
  lockWindow : Bool
  rowCount : Bool
  startAllowance : Bool
  deriving DecidableEq, Repr

/-- The last commit result (R24, R25, R28). -/
inductive CommitResult where
  | none
  | accepted (seq : BitVec 16) (clamps : ClampSet)
  | rejected (seq : BitVec 16) (reason : Group)
  deriving DecidableEq, Repr

/-- The pending plan record: plan, sequence, the commit's head time (R25). -/
structure PendingPlan where
  plan : Plan
  seq : BitVec 16
  at_ : HeadTime
  deriving DecidableEq, Repr

/-- The working plan with its sequence (R27). -/
structure WorkingPlan where
  plan : Plan
  seq : BitVec 16
  deriving DecidableEq, Repr

/-- Plan state (R25). -/
inductive PlanState where
  | unplanned | active | activePending
  deriving DecidableEq, Repr

/-- The plan unit (chapter 2). The plan state is computed from `working` and `pending` (`PlanUnit.state`). -/
structure PlanUnit where
  shadow : Memory
  live : Memory
  pending : Option PendingPlan
  working : Option WorkingPlan
  last : CommitResult
  deriving DecidableEq, Repr

/-- UNPLANNED without a working plan; ACTIVE+PENDING with a pending plan beside it; else ACTIVE (R25, R28). -/
def PlanUnit.state (p : PlanUnit) : PlanState :=
  match p.working, p.pending with
  | .none, _ => .unplanned
  | .some _, .none => .active
  | .some _, .some _ => .activePending

/-! ### The memory path (chapter 1) -/

/-- The two readers (chapter 7). -/
inductive ReaderId where
  | live | replay
  deriving DecidableEq, Repr

/-- The two line buffers of a reader (section 7.1). -/
inductive BufId where
  | a | b
  deriving DecidableEq, Repr

/-- One read request of a line fetch (R122): its address and length, its byte offset `off` in its run, and the run's
placement of R51: output columns [xa, xb), mirrored or not, bytes per pixel. -/
structure FetchReq where
  addr : Nat
  len : Nat
  off : Nat
  xa : Nat
  xb : Nat
  mirror : Bool
  bpp : Nat
  deriving DecidableEq, Repr

/-- What a request of the remote access unit is for (R176, R179, R181). -/
inductive RemoteUse where
  | read | write | maskRead | maskWrite | seed
  deriving DecidableEq, Repr

/-- The requester an in-flight record names (R3). -/
inductive Owner where
  | passing (ident : Nat)
  | fetch (reader : ReaderId) (buf : BufId) (req : FetchReq)
  | remote (use : RemoteUse)
  | report
  | feed
  deriving DecidableEq, Repr

/-- One entry of a tracking handle (R5, R46): slot, the binding in force at the grant if the slot was FILLING, tile, and
the range of tile rows touched. -/
structure HandleEntry where
  slot : Nat
  binding : Option Nat
  tile : Nat
  first : Nat
  last : Nat
  deriving DecidableEq, Repr

/-- An in-flight record (R3): tag, requester, kind and length of the request, tracking handle. -/
structure InFlight where
  tag : Nat
  owner : Owner
  isWrite : Bool
  len : Nat
  handle : List HandleEntry
  deriving DecidableEq, Repr

/-- The head side's request in transit, with the fabric's identification (R1). -/
structure PassingReq where
  ident : Nat
  op : BusOp
  deriving DecidableEq, Repr

/-- A request as the memory side port presents it to the memory controller, with its tag (R3). -/
structure PortReq where
  tag : Nat
  op : BusOp
  deriving DecidableEq, Repr

/-- A response as the head side port returns it to the fabric (R3). -/
structure HeadReply where
  ident : Nat
  reply : MemReply
  deriving DecidableEq, Repr

/-- Who was last granted at rank 3 (R10). -/
inductive Rank3 where
  | report | feed
  deriving DecidableEq, Repr

/-- The memory path: both ports, the arbiter and the classifier's copies (chapter 1). `planBase` counts GiB. -/
structure MemPath where
  transit : Option PassingReq
  inflight : List InFlight
  nextTag : Nat
  steal : Nat
  portHeld : Bool
  lastRank3 : Rank3
  parked : Bool
  planBase : BitVec 4
  memSize : MemSize
  memOut : Option PortReq
  headOut : Option HeadReply
  deriving DecidableEq, Repr

/-! ### Progress tracking (chapter 4) -/

/-- Deadline status of a tile (section 4.1). -/
inductive TileStatus where
  | running | finished | stalled
  deriving DecidableEq, Repr

/-- A tile's front in a context (section 4.1). `lastAdvance` has no meaning while `seen` is clear (R53). -/
structure Front where
  row : Nat
  byte : Nat
  seen : Bool
  lastAdvance : HeadTime
  status : TileStatus
  deriving DecidableEq, Repr

/-- A bound progress context (section 4.1); `binding` tells this binding from every other (R52). -/
structure Context where
  binding : Nat
  slot : Nat
  frameStart : HeadTime
  fronts : List Front
  deriving DecidableEq, Repr

/-- The two progress contexts, numbered 0 and 1. -/
inductive CtxId where
  | c0 | c1
  deriving DecidableEq, Repr

/-- The progress tracker (R52): two contexts, free when `none`, and the binding order, earlier first. -/
structure Tracker where
  ctx0 : Option Context
  ctx1 : Option Context
  order : List CtxId
  nextBinding : Nat
  deriving DecidableEq, Repr

/-- A range [first, last] of tile rows in a damage list, with the overflow flag (R61). -/
structure RowRange where
  first : Nat
  last : Nat
  overflow : Bool
  deriving DecidableEq, Repr

/-! ### The frame ring (chapter 5) -/

/-- Slot state (R77). -/
inductive SlotState where
  | empty | filling | closed
  deriving DecidableEq, Repr

/-- Outcome of a tile in a slot record (R77). -/
inductive TileOutcome where
  | pending | finished | stalled
  deriving DecidableEq, Repr

/-- A slot record (R77). -/
structure Slot where
  state : SlotState
  frame : FrameNo
  phase : Nat
  base : BitVec 32
  held : Bool
  live : Bool
  replay : Bool
  outcomes : List TileOutcome
  damage : List (List RowRange)
  rewrites : BitVec 16
  deriving DecidableEq, Repr

/-- An EMPTY record: flags clear, lists empty, rewrite count 0, absent fields held as 0 (R77, R78). -/
def Slot.vacant : Slot :=
  { state := .empty, frame := 0, phase := 0, base := 0, held := false, live := false, replay := false,
    outcomes := [], damage := [], rewrites := 0 }

/-- Gate state (R89). -/
inductive Gate where
  | running
  | countdown (n : BitVec 16)
  | stepping
  | paused
  deriving DecidableEq, Repr

/-- The ring controller (chapter 5). `slots` has 32 records. -/
structure Ring where
  slots : List Slot
  age : List Nat
  frameCounter : FrameNo
  lastStarted : Option FrameNo
  gate : Gate
  holdCount : Nat
  frameStartHigh : Bool
  frameStartEnd : Option HeadTime
  slotLines : BitVec 5
  phaseLines : BitVec 3
  deriving DecidableEq, Repr

/-! ### Timing and genlock (chapter 6) -/

/-- Genlock state (section 6.5). -/
inductive Genlock where
  | free | locking | locked
  deriving DecidableEq, Repr

/-- A remaining in-group capture: its head time, phase, and its group's base count (R112, R114). -/
structure InGroup where
  at_ : HeadTime
  phase : Nat
  base : BitVec 32
  deriving DecidableEq, Repr

/-- The timing generator (chapter 6). -/
structure Timing where
  now : HeadTime
  delay : Nat
  delayValid : Bool
  outlierRun : Nat
  echoSeq : BitVec 16
  echoOut : Bool
  echoDue : HeadTime
  nextAnchor : Option HeadTime
  inGroup : List InGroup
  nextBase : BitVec 32
  genlock : Genlock
  lockRun : Nat
  lossDeadline : Option HeadTime
  phaseError : BitVec 32
  statusDue : HeadTime
  deriving DecidableEq, Repr

/-! ### Line readers (chapter 7) -/

/-- Line buffer state (section 7.1). -/
inductive BufState where
  | empty | fetching | ready | sending
  deriving DecidableEq, Repr

/-- A line buffer (section 7.1). `data` is the line's bytes; `todo` the requests of the fetch not yet presented. -/
structure LineBuf where
  state : BufState
  slot : Nat
  frame : FrameNo
  line : Nat
  concealed : Bool
  test : Bool
  last : Bool
  nextCell : Nat
  discard : Bool
  outstanding : Nat
  data : List Byte
  todo : List FetchReq
  deriving DecidableEq, Repr

/-- An EMPTY buffer, every field clear or 0 (R120). -/
def LineBuf.vacant : LineBuf :=
  { state := .empty, slot := 0, frame := 0, line := 0, concealed := false, test := false, last := false,
    nextCell := 0, discard := false, outstanding := 0, data := [], todo := [] }

/-- What the two readers share: the line buffers, the occupied ones in the order their fetches began (R120), and the
request presented to the arbiter with its buffer (R10, R122). -/
structure Fetcher where
  bufA : LineBuf
  bufB : LineBuf
  order : List BufId
  req : Option (BufId × FetchReq)
  deriving DecidableEq, Repr

/-- A strip's next-line pointer and remaining count in ARRIVAL order (R133). -/
structure StripPtr where
  line : Nat
  remaining : Nat
  deriving DecidableEq, Repr

/-- The live reader (section 7.3). -/
structure LiveReader where
  active : Option Nat
  waiting : Option Nat
  rasterPtr : Nat
  strips : List StripPtr
  rotation : Nat
  handed : Nat
  fetcher : Fetcher
  deriving DecidableEq, Repr

/-- A replay request (section 7.4). -/
structure ReplayReq where
  tag : Tag
  frame : FrameNo
  first : Nat
  count : Nat
  paced : Bool
  cancelled : Bool
  deriving DecidableEq, Repr

/-- The statuses of R172. -/
inductive Status where
  | done | busy | full | gone | range | parked | fault | disabled | invalid | cancelled | unplanned
  deriving DecidableEq, Repr

/-- Stage of the current request (section 7.4); ENDING carries the status its entry will have. -/
inductive Stage where
  | waitingClose
  | sending
  | ending (status : Status)
  deriving DecidableEq, Repr

/-- The current request (section 7.4); `marked`: its slot carries its REPLAY mark. -/
structure CurrentReq where
  req : ReplayReq
  stage : Stage
  slot : Nat
  marked : Bool
  nextLine : Nat
  lastLine : Nat
  linesSent : Nat
  deriving DecidableEq, Repr

/-- The replay reader (section 7.4). -/
structure ReplayReader where
  queue : List ReplayReq
  current : Option CurrentReq
  credit : Nat
  fetcher : Fetcher
  deriving DecidableEq, Repr

/-! ### Downlink (chapter 8) -/

/-- HEAD-STATUS occasion (R118). -/
inductive Occasion where
  | anchor | timer
  deriving DecidableEq, Repr

/-- A control entry of one of the seven kinds (section 8.5, R196). -/
inductive Entry where
  | response (kind : Byte) (tag : Tag) (status : Status) (data : List Byte)
  | replayEnd (status : Status) (tag : Tag) (frame : FrameNo) (linesSent : Nat)
  | echo (seq : BitVec 16) (stamp : HeadTime)
  | headStatus (occasion : Occasion) (genlock : Genlock) (lockRun : Nat) (speed : Nat) (time : HeadTime)
      (base : BitVec 32) (delay : Nat) (delayValid : Bool) (phaseError : BitVec 32)
  | returnDrop (count : BitVec 16) (time : HeadTime)
  | watch (id : Nat) (value : List Byte) (time : HeadTime) (hits : BitVec 16)
  | frameClosed (frame : FrameNo) (slot : Nat) (phase : Nat) (base : BitVec 32) (damaged : Nat)
      (stalled : List Bool) (rewrites : BitVec 16)
  deriving DecidableEq, Repr

/-- The downlink scheduler (chapter 8). -/
structure Downlink where
  rate : LinkRate
  nextBoundary : HeadTime
  ctrl : List Entry
  cellSeq : BitVec 16
  sinceControl : Nat
  lineOut : Option (List Byte)
  deriving DecidableEq, Repr

/-! ### Uplink (chapter 9) and remote access (chapter 10) -/

/-- Watch mode (section 10.4). -/
inductive WatchMode where
  | every | change | once
  deriving DecidableEq, Repr

/-- What the executor still needs to end the memory order in hand (R176 to R183). -/
inductive MemOrder where
  | read (n : Nat)
  | readNext (n : Nat)
  | write (n : Nat)
  | writeNext (n : Nat)
  | maskWrite (addr : Nat) (value : List Byte) (mask : List Byte) (old : Option (List Byte))
  | watchSet (id : Nat) (addr : Nat) (len : Nat) (mode : WatchMode)
  deriving DecidableEq, Repr

/-- The executor (R170): IDLE, EXECUTING a memory order, or RESPONDING with the RESPONSE it holds. -/
inductive Executor where
  | idle
  | executing (kind : Byte) (tag : Tag) (order : MemOrder)
  | responding (entry : Entry)
  deriving DecidableEq, Repr

/-- The uplink receiver (chapter 9). -/
structure Uplink where
  frameStart : Option HeadTime
  missingDue : Option HeadTime
  locked : Bool
  goodRun : Nat
  badRun : Nat
  lastSeq : Option (BitVec 16)
  orders : List RawOrder
  executor : Executor
  deriving DecidableEq, Repr

/-- A request the remote access unit presents (R176). -/
structure RemoteReq where
  use : RemoteUse
  op : BusOp
  deriving DecidableEq, Repr

/-- The remote access unit (R174, R16, R176). -/
structure Remote where
  page : BitVec 10
  pointer : Addr
  enabled : Bool
  req : Option RemoteReq
  deriving DecidableEq, Repr

/-- An ARMED watch entry (section 10.4). -/
structure WatchEntry where
  addr : Nat
  len : Nat
  mode : WatchMode
  known : List Byte
  reported : List Byte
  deriving DecidableEq, Repr

/-- The seeding record (R182); a byte of `known` is `none` while unwritten. -/
structure Seeding where
  id : Nat
  addr : Nat
  len : Nat
  mode : WatchMode
  known : List (Option Byte)
  hits : Nat
  hitTime : Option HeadTime
  deriving DecidableEq, Repr

/-- The watch unit (R180). `table` has eight entries, FREE when `none`. -/
structure Watch where
  table : List (Option WatchEntry)
  seeding : Option Seeding
  deriving DecidableEq, Repr

/-! ### Return feed (chapter 11) -/

/-- The drain write in hand (R189); a granted one carries its length and whether the ring changed since (R193). -/
inductive Drain where
  | none
  | presented (addr : Nat) (n : Nat)
  | granted (n : Nat) (stale : Bool)
  deriving DecidableEq, Repr

/-- The return feed unit (chapter 11). -/
structure Feed where
  start : Nat
  stop : Nat
  producer : Nat
  consumer : Nat
  fifo : List Byte
  drain : Drain
  pendingDrop : BitVec 16
  deriving DecidableEq, Repr

/-! ### Report writer and counters (chapter 2) -/

/-- The twenty counters of R37, in the order of its table. -/
structure Counters where
  memoryErrors : BitVec 16
  rejectedCommits : BitVec 16
  lateWrites : BitVec 16
  strayWrites : BitVec 16
  disturbedWrites : BitVec 16
  forcedCloses : BitVec 16
  skippedCaptures : BitVec 16
  phaseSteps : BitVec 16
  echoOutliers : BitVec 16
  abandonedEchoes : BitVec 16
  liveDrops : BitVec 16
  droppedEntries : BitVec 16
  badFrames : BitVec 16
  missingFrames : BitVec 16
  unknownOrders : BitVec 16
  overrunFrames : BitVec 16
  misplacedReferences : BitVec 16
  discardedOrders : BitVec 16
  returnDrops : BitVec 16
  refusedConsumers : BitVec 16
  deriving DecidableEq, Repr

/-- All counters 0 (R37). -/
def Counters.zero : Counters :=
  { memoryErrors := 0, rejectedCommits := 0, lateWrites := 0, strayWrites := 0, disturbedWrites := 0,
    forcedCloses := 0, skippedCaptures := 0, phaseSteps := 0, echoOutliers := 0, abandonedEchoes := 0,
    liveDrops := 0, droppedEntries := 0, badFrames := 0, missingFrames := 0, unknownOrders := 0,
    overrunFrames := 0, misplacedReferences := 0, discardedOrders := 0, returnDrops := 0, refusedConsumers := 0 }

/-- The five attention causes (R32). -/
structure Causes where
  strap : Bool
  commit : Bool
  link : Bool
  genlock : Bool
  fault : Bool
  deriving DecidableEq, Repr

/-- What the status record shows of one slot (R200). -/
structure SlotView where
  state : SlotState
  frame : FrameNo
  held : Bool
  live : Bool
  replay : Bool
  deriving DecidableEq, Repr

/-- The contents of a status record (section 2.6, R200), as its snapshot took them. -/
structure StatusRecord where
  number : BitVec 32
  time : HeadTime
  planState : PlanState
  last : CommitResult
  workingSeq : Option (BitVec 16)
  pendingSeq : Option (BitVec 16)
  genlock : Genlock
  uplinkLocked : Bool
  delay : Nat
  delayValid : Bool
  gate : Gate
  causes : Causes
  phaseError : BitVec 32
  credit : Nat
  frameCounter : FrameNo
  period : Nat
  speed : Nat
  producer : Nat
  counters : Counters
  slots : List SlotView
  deriving DecidableEq, Repr

/-- A write the report writer presents: the producer word or a half of the record (R34, R35). -/
inductive ReportWrite where
  | producerWord | firstHalf | secondHalf
  deriving DecidableEq, Repr

/-- The report writer (sections 2.5, 2.6). -/
structure Report where
  causes : Causes
  recordNumber : BitVec 32
  writing : Option StatusRecord
  halvesLeft : Nat
  recordDue : Bool
  presented : Option ReportWrite
  producer : Option Nat
  producerWanted : Bool
  timerDue : HeadTime
  deriving DecidableEq, Repr

/-! ### The whole block -/

/-- Everything but the queue of commands: one field per block of the manual's block diagram, the RESET pin, the
counters, and the count that selects free values. -/
structure Dev where
  resetAsserted : Bool
  mem : MemPath
  plan : PlanUnit
  report : Report
  counters : Counters
  tracker : Tracker
  ring : Ring
  timing : Timing
  live : LiveReader
  replay : ReplayReader
  downlink : Downlink
  uplink : Uplink
  remote : Remote
  watch : Watch
  feed : Feed
  freeCount : Nat
  deriving DecidableEq, Repr

/-- The state: the block, and the commands that wait, first in, first out. -/
structure State where
  dev : Dev
  pending : List Instr
  deriving DecidableEq, Repr

/-! ### Reset -/

/-- Both buffers EMPTY, nothing presented (R120). -/
def Fetcher.vacant : Fetcher := { bufA := .vacant, bufB := .vacant, order := [], req := .none }

/-- The block at the release of device reset, before the first status record falls due (R33): `planBase` is the
classifier's plan base after the clamp of R15, `clamped` whether it was clamped, `parked` the memory controller's
signal. Each field's value is the one its chapter gives for device reset (R17, R28, R36, R37, R52, R77, R100, R119,
R120, R129, R136, R158, R173, R174, R180, R193). -/
def Dev.released (straps : Straps) (planBase : BitVec 4) (clamped : Bool) (parked : Bool)
    (nextTag nextBinding freeCount : Nat) : Dev :=
  { resetAsserted := false
    mem := { transit := .none, inflight := [], nextTag := nextTag, steal := 0, portHeld := false, lastRank3 := .report,
             parked := parked, planBase := planBase, memSize := straps.memSize, memOut := .none, headOut := .none }
    plan := { shadow := [], live := [], pending := .none, working := .none, last := .none }
    report := { causes := { strap := clamped, commit := false, link := false, genlock := false, fault := false },
                recordNumber := 0, writing := .none, halvesLeft := 0, recordDue := false, presented := .none,
                producer := .none, producerWanted := false, timerDue := 2097152 }
    counters := .zero
    tracker := { ctx0 := .none, ctx1 := .none, order := [], nextBinding := nextBinding }
    ring := { slots := List.replicate 32 .vacant, age := [], frameCounter := 0, lastStarted := .none, gate := .running,
              holdCount := 0, frameStartHigh := false, frameStartEnd := .none, slotLines := 0, phaseLines := 0 }
    timing := { now := 0, delay := 0, delayValid := false, outlierRun := 0, echoSeq := 0, echoOut := false,
                echoDue := 2097152, nextAnchor := .none, inGroup := [], nextBase := 0, genlock := .free, lockRun := 0,
                lossDeadline := .none, phaseError := 0, statusDue := 2097152 }
    live := { active := .none, waiting := .none, rasterPtr := 0, strips := [], rotation := 0, handed := 0,
              fetcher := .vacant }
    replay := { queue := [], current := .none, credit := 0, fetcher := .vacant }
    downlink := { rate := straps.linkRate, nextBoundary := 0, ctrl := [], cellSeq := 0, sinceControl := 0,
                  lineOut := .none }
    uplink := { frameStart := .none, missingDue := .none, locked := false, goodRun := 0, badRun := 0, lastSeq := .none,
                orders := [], executor := .idle }
    remote := { page := 0, pointer := 0, enabled := straps.remoteEn, req := .none }
    watch := { table := List.replicate 8 .none, seeding := .none }
    feed := { start := 0, stop := 0, producer := 0, consumer := 0, fifo := [], drain := .none, pendingDrop := 0 }
    freeCount := freeCount }

/-- The straps of `State.reset`. DESIGN CHOICE, log 1: the manual leaves the straps to the board. -/
def defaultStraps : Straps := { planBase := 0, memSize := .gib2, linkRate := .setting0, remoteEn := false }

/-- The first status record, due at the release of device reset (R33); its number is 1 (R34). -/
def StatusRecord.first : StatusRecord :=
  { number := 1, time := 0, planState := .unplanned, last := .none, workingSeq := .none, pendingSeq := .none,
    genlock := .free, uplinkLocked := false, delay := 0, delayValid := false, gate := .running,
    causes := { strap := false, commit := false, link := false, genlock := false, fault := false },
    phaseError := 0, credit := 0, frameCounter := 0, period := 0, speed := 0, producer := 0, counters := .zero,
    slots := List.replicate 32 { state := .empty, frame := 0, held := false, live := false, replay := false } }

/-- The machine right after reset: the block released with the straps of log 1, and the first status record's first
write presented (R33, R34). -/
def State.reset : State :=
  let d := Dev.released defaultStraps 0 false false 0 0 0
  { dev := { d with report := { d.report with recordNumber := 1, writing := some .first, halvesLeft := 1,
                                              presented := some .firstHalf } }
    pending := [] }

end Sys2Proof.Machine
end

