-- ==== Sys2Proof/Machine/Ops.lean ====
section
/-! DEFINITION. The shared operations: head times, addressed buffers, saturating counts, attention causes, the status
record, the control queue, the slot marks. -/

namespace Sys2Proof.Machine

/-! ### Head times -/

/-- `a` is later than `b`: (a − b) mod 2^32 lies in 1 … 2^31 − 1 (00_scope, Time). -/
def later (a b : HeadTime) : Bool := 1 ≤ (a - b).toNat && (a - b).toNat < 2147483648

/-- Head time `now` has reached `due`: it is at or after it (00_scope, Time; R101). -/
def reached (now due : HeadTime) : Bool := (now - due).toNat < 2147483648

/-! ### Addressed buffers (R18, R29) -/

/-- The byte at an offset; an unlisted offset reads 0. -/
def Memory.read : Memory → Nat → Byte
  | [], _ => 0
  | (k, v) :: m, a => if k = a then v else Memory.read m a

/-- Put a byte at an offset, keeping the canonical form. -/
def Memory.write : Memory → Nat → Byte → Memory
  | [], a, b => if b = 0 then [] else [(a, b)]
  | (k, v) :: m, a, b =>
    if a < k then (if b = 0 then (k, v) :: m else (a, b) :: (k, v) :: m)
    else if a = k then (if b = 0 then m else (a, b) :: m)
    else (k, v) :: Memory.write m a b

/-- Put those of the bytes at `a`, `a + 1`, … that fall in [lo, hi), in address order. -/
def Memory.writeIn (lo hi : Nat) : Memory → Nat → List Byte → Memory
  | m, _, [] => m
  | m, a, b :: bs => Memory.writeIn lo hi (if lo ≤ a ∧ a < hi then m.write a b else m) (a + 1) bs

/-- The `n` bytes from an offset. -/
def Memory.readBytes (m : Memory) (a n : Nat) : List Byte := (List.range n).map fun i => m.read (a + i)

/-- The little-endian number in the `n` bytes from an offset (R194, R199). -/
def Memory.readNat (m : Memory) (a n : Nat) : Nat := leNat (m.readBytes a n)

/-- Every listed offset is at least `lo`, offsets rise strictly, and no byte 0 is listed. -/
def Memory.wfFrom : Nat → Memory → Bool
  | _, [] => true
  | lo, (k, v) :: m => lo ≤ k && v ≠ 0 && Memory.wfFrom (k + 1) m

/-- The canonical form of an addressed buffer. -/
def Memory.wf (m : Memory) : Bool := Memory.wfFrom 0 m

/-! ### Counters (R37) -/

/-- Add 1, stopping at 65,535 (R37). -/
def satInc (c : BitVec 16) : BitVec 16 := if c = 0xFFFF then c else c + 1

/-- Change the counters. -/
def Dev.count (f : Counters → Counters) (d : Dev) : Dev := { d with counters := f d.counters }

/-! ### The plan in force -/

/-- The working plan, if there is one (R27). -/
def Dev.plan? (d : Dev) : Option Plan := d.plan.working.map (·.plan)

/-! ### The memory size and the plan region (R15, R16) -/

/-- The memory size in bytes. -/
def MemSize.bytes : MemSize → Nat
  | .gib2 => 2147483648
  | .gib4 => 4294967296
  | .gib8 => 8589934592
  | .gib16 => 17179869184

/-- The address of the plan region: PLAN-BASE × 1 GiB, with the classifier's plan base (R5, R15). -/
def MemPath.planAddr (m : MemPath) : Nat := m.planBase.toNat * 1073741824

/-- The clamp of R15: a plan base whose region is not below the memory size becomes 0. -/
def clampPlanBase (straps : Straps) : BitVec 4 × Bool :=
  if straps.planBase.toNat * 1073741824 < MemSize.bytes straps.memSize then (straps.planBase, false) else (0, true)

/-! ### The status record (R33, R34, R200) -/

/-- What the record shows of a slot (R200). -/
def Slot.view (s : Slot) : SlotView :=
  { state := s.state, frame := s.frame, held := s.held, live := s.live, replay := s.replay }

/-- All of a record's contents as they stand (R34, section 2.6). -/
def Dev.snapshot (d : Dev) (number : BitVec 32) : StatusRecord :=
  { number := number
    time := d.timing.now
    planState := d.plan.state
    last := d.plan.last
    workingSeq := d.plan.working.map (·.seq)
    pendingSeq := d.plan.pending.map (·.seq)
    genlock := d.timing.genlock
    uplinkLocked := d.uplink.locked
    delay := d.timing.delay
    delayValid := d.timing.delayValid
    gate := d.ring.gate
    causes := d.report.causes
    phaseError := d.timing.phaseError
    credit := d.replay.credit
    frameCounter := d.ring.frameCounter
    period := (d.plan?.map (·.period)).getD 0
    speed := (d.plan?.map (·.speed)).getD 0
    producer := d.feed.producer
    counters := d.counters
    slots := d.ring.slots.map Slot.view }

/-- The report writer presents its next write if it presents none: a wanted producer word first, then the next half of
the record being written (R34, R35). -/
def Report.present (r : Report) : Report :=
  match r.presented with
  | some _ => r
  | none =>
    if r.producerWanted then { r with presented := some .producerWord, producerWanted := false }
    else match r.writing, r.halvesLeft with
      | some _, 2 => { r with presented := some .firstHalf, halvesLeft := 1 }
      | some _, 1 => { r with presented := some .secondHalf, halvesLeft := 0 }
      | _, _ => r

/-- Take a snapshot, number it, and start writing it (R34). -/
def Dev.startRecord (d : Dev) : Dev :=
  let n := d.report.recordNumber + 1
  let rec_ := d.snapshot n
  { d with report := Report.present { d.report with recordNumber := n, writing := some rec_, halvesLeft := 2 } }

/-- A status record is due: a snapshot is taken, or the record-due flag is set while one is being written (R34). -/
def Dev.recordDue (d : Dev) : Dev :=
  match d.report.writing with
  | some _ => { d with report := { d.report with recordDue := true } }
  | none => d.startRecord

/-- The return feed hands the report writer a producer value (R35). -/
def Dev.handProducer (p : Nat) (d : Dev) : Dev :=
  let r := { d.report with producer := some p }
  if r.presented = some .producerWord then { d with report := r }
  else { d with report := Report.present { r with producerWanted := true } }

/-! ### The control queue (R154, R155) -/

/-- How many entries must be free for an entry of a kind to be admitted (R154). -/
def Entry.threshold : Entry → Nat
  | .response _ _ _ _ | .replayEnd _ _ _ _ => 1
  | .echo _ _ | .headStatus _ _ _ _ _ _ _ _ _ | .returnDrop _ _ => 9
  | .watch _ _ _ _ | .frameClosed _ _ _ _ _ _ _ => 17

/-- The number of free entries: 64 less the number held (R154). -/
def Downlink.free (q : Downlink) : Nat := 64 - q.ctrl.length

/-- The control queue would admit this entry now (R154). -/
def Dev.admits (d : Dev) (e : Entry) : Bool := e.threshold ≤ d.downlink.free

/-- Append an admitted entry (R154). -/
def Dev.enqueue (e : Entry) (d : Dev) : Dev :=
  { d with downlink := { d.downlink with ctrl := d.downlink.ctrl ++ [e] } }

/-- The dropped-entries counter increments (R154). -/
def Dev.dropEntry (d : Dev) : Dev := d.count fun c => { c with droppedEntries := satInc c.droppedEntries }

/-- Offer an entry of a kind that is dropped when refused (R154). -/
def Dev.offer (e : Entry) (d : Dev) : Dev := if d.admits e then d.enqueue e else d.dropEntry

/-- The entry is a WATCH entry for this id (R155). -/
def Entry.isWatch (id : Nat) : Entry → Bool
  | .watch i _ _ _ => i = id
  | .response _ _ _ _ | .replayEnd _ _ _ _ | .echo _ _ | .headStatus _ _ _ _ _ _ _ _ _ | .returnDrop _ _
  | .frameClosed _ _ _ _ _ _ _ => false

/-- Rewrite a queued WATCH entry in place: new value, new head time, hit count + 1 stopping at 65,535 (R155). -/
def Entry.coalesce (value : List Byte) (time : HeadTime) : Entry → Entry
  | .watch i _ _ hits => .watch i value time (satInc hits)
  | e => e

/-- Offer a WATCH entry; answers whether it was admitted or coalesced (R155, R185). -/
def Dev.offerWatch (id : Nat) (value : List Byte) (time : HeadTime) (d : Dev) : Dev × Bool :=
  if d.downlink.ctrl.any (Entry.isWatch id) then
    ({ d with downlink := { d.downlink with
        ctrl := d.downlink.ctrl.map fun e => if e.isWatch id then e.coalesce value time else e } }, true)
  else if d.admits (.watch id value time 1) then (d.enqueue (.watch id value time 1), true)
  else (d.dropEntry, false)

/-! ### Slot records and marks (R77, R88) -/

/-- The slot record at an index; beyond the table, an EMPTY one. -/
def Ring.slot (r : Ring) (s : Nat) : Slot := r.slots.getD s .vacant

/-- Change one slot record. -/
def Dev.updSlot (s : Nat) (f : Slot → Slot) (d : Dev) : Dev :=
  { d with ring := { d.ring with slots := d.ring.slots.modify s f } }

/-- A reader marks a slot (R88). -/
def Dev.mark (r : ReaderId) (s : Nat) (d : Dev) : Dev :=
  d.updSlot s fun x => match r with
    | .live => { x with live := true }
    | .replay => { x with replay := true }

/-- A reader removes its mark from a slot (R88). -/
def Dev.unmark (r : ReaderId) (s : Nat) (d : Dev) : Dev :=
  d.updSlot s fun x => match r with
    | .live => { x with live := false }
    | .replay => { x with replay := false }

/-- The index of the slot that carries a frame number, among the non-EMPTY slots (R79). -/
def Ring.lookup (r : Ring) (f : FrameNo) : Option Nat :=
  r.slots.findIdx? fun s => s.state ≠ .empty && s.frame = f

/-! ### Choosing an order for events that come together (log 3) -/

/-- Put `x` at place `n` of a list. -/
def insertAt {α : Type} : Nat → α → List α → List α
  | 0, x, xs => x :: xs
  | _ + 1, x, [] => [x]
  | n + 1, x, y :: ys => y :: insertAt n x ys

/-- One of the orders of a list, chosen by a number; every order is chosen by some number. -/
def pickOrder {α : Type} : Nat → List α → List α
  | _, [] => []
  | _, [x] => [x]
  | n, x :: y :: ys => insertAt (n % (ys.length + 2)) x (pickOrder (n / (ys.length + 2)) (y :: ys))

end Sys2Proof.Machine
end

