-- ==== Sys2Proof/Machine/Flags.lean ====
section
/-! DEFINITION. The attention causes and the attention line (section 2.5): the block's status flags. -/

namespace Sys2Proof.Machine

/-- The five causes, named (R32). -/
inductive Cause where
  | strap | commit | link | genlock | fault
  deriving DecidableEq, Repr

/-- Whether a cause is set. -/
def Causes.get (c : Causes) : Cause → Bool
  | .strap => c.strap
  | .commit => c.commit
  | .link => c.link
  | .genlock => c.genlock
  | .fault => c.fault

/-- The causes with one set. -/
def Causes.set (c : Causes) : Cause → Causes
  | .strap => { c with strap := true }
  | .commit => { c with commit := true }
  | .link => { c with link := true }
  | .genlock => { c with genlock := true }
  | .fault => { c with fault := true }

/-- At least one cause is set. -/
def Causes.any (c : Causes) : Bool := c.strap || c.commit || c.link || c.genlock || c.fault

/-- The attention line: asserted while a cause is set, released while RESET is asserted (R32). -/
def Dev.attentionLine (d : Dev) : Bool := !d.resetAsserted && d.report.causes.any

/-- Set a cause. If it goes from clear to set a status record is due; if it was set nothing changes (R32, R33). -/
def Dev.setCause (c : Cause) (d : Dev) : Dev :=
  if d.report.causes.get c then d
  else Dev.recordDue { d with report := { d.report with causes := d.report.causes.set c } }

/-- Clear the causes that an ATTENTION-ACK value names: bit 0 STRAP, 1 COMMIT, 2 LINK, 3 GENLOCK, 4 FAULT
(R30, R200). -/
def Causes.acknowledge (c : Causes) (v : Nat) : Causes :=
  { strap := c.strap && !v.testBit 0
    commit := c.commit && !v.testBit 1
    link := c.link && !v.testBit 2
    genlock := c.genlock && !v.testBit 3
    fault := c.fault && !v.testBit 4 }

/-- The causes as the status record's byte (R200). -/
def Causes.toNat (c : Causes) : Nat :=
  c.strap.toNat + 2 * c.commit.toNat + 4 * c.link.toNat + 8 * c.genlock.toNat + 16 * c.fault.toNat

end Sys2Proof.Machine
end

