-- ==== Sys2Proof/Machine/Operands.lean ====
section
/-! DEFINITION. What addresses and staged bytes mean: the fields of the staging area (R199), the stitch geometry and its
forward and reverse maps (chapter 3). -/

namespace Sys2Proof.Machine

/-! ### Geometry (section 3.1) -/

/-- Strip `i` of a plan. -/
def Plan.stripAt (p : Plan) (i : Nat) : Strip := p.strips.getD i { first := 0, height := 0, up := false }

/-- Tile `t` of a plan. -/
def Plan.tileAt (p : Plan) (t : Nat) : Tile :=
  p.tiles.getD t { strip := 0, lead := 0, mirror := false, offset := 0, pitch := 0, cols := 0, trimLeft := 0,
                   trimRight := 0, x := 0 }

/-- Rows_t = λ_t + H_σ (R39). -/
def Plan.rows (p : Plan) (t : Tile) : Nat := t.lead + (p.stripAt t.strip).height

/-- Row length_t = cols_t × p (R39). -/
def Plan.rowLen (p : Plan) (t : Tile) : Nat := t.cols * p.bpp

/-- Active width A_t (R39). -/
def Tile.active (t : Tile) : Nat := t.cols - t.trimLeft - t.trimRight

/-- The end of window_t in a slot (R39). -/
def Plan.windowEnd (p : Plan) (t : Tile) : Nat := t.offset + p.rows t * t.pitch

/-- σ(y): the strip of an output line (R38). -/
def Plan.stripOf (p : Plan) (y : Nat) : Option Nat :=
  p.strips.findIdx? fun s => s.first ≤ y && y < s.first + s.height

/-- First-read line of a strip (R38). -/
def Strip.firstRead (s : Strip) : Nat := if s.up then s.first + s.height - 1 else s.first

/-- Put a tile index into a list that rises in X. -/
def Plan.insertByX (p : Plan) (t : Nat) : List Nat → List Nat
  | [] => [t]
  | u :: us => if (p.tileAt t).x ≤ (p.tileAt u).x then t :: u :: us else u :: p.insertByX t us

/-- The tiles of a strip, sorted by X (R42). -/
def Plan.tilesOf (p : Plan) (σ : Nat) : List Nat :=
  ((List.range p.tiles.length).filter fun t => (p.tileAt t).strip = σ).foldr p.insertByX []

/-- row_t(y): the row of a tile that carries a line of its strip (R47). -/
def Plan.rowOf (p : Plan) (t : Tile) (y : Nat) : Nat :=
  let s := p.stripAt t.strip
  if s.up then t.lead + (s.first + s.height - 1 - y) else t.lead + (y - s.first)

/-- The output line of a tile row; a lead row has none (R47). -/
def Plan.lineOf (p : Plan) (t : Tile) (r : Nat) : Option Nat :=
  let s := p.stripAt t.strip
  if r < t.lead then none
  else some (if s.up then s.first + s.height - 1 - (r - t.lead) else s.first + (r - t.lead))

/-- The stored column of an output column carried by the tile (R48). -/
def Tile.storedCol (t : Tile) (x : Nat) : Nat :=
  if t.mirror then t.cols - 1 - t.trimRight - (x - t.x) else t.trimLeft + (x - t.x)

/-- The output column of a stored column, if it is active (R48). -/
def Tile.outputCol (t : Tile) (c : Nat) : Option Nat :=
  if t.trimLeft ≤ c && c < t.cols - t.trimRight then
    some (if t.mirror then t.x + (t.cols - 1 - t.trimRight - c) else t.x + (c - t.trimLeft))
  else none

/-- The address at which row `r` of a tile begins in slot `s` (R50, R51). -/
def Plan.rowStart (p : Plan) (s : Nat) (t : Tile) (r : Nat) : Nat :=
  p.ringBase + s * p.stride + t.offset + r * t.pitch

/-- The address of output pixel (x, y) of slot `s`, taken from tile `t` (R50). -/
def Plan.pixelAddr (p : Plan) (s : Nat) (t : Tile) (x y : Nat) : Nat :=
  p.rowStart s t (p.rowOf t y) + t.storedCol x * p.bpp

/-! ### The forward map (section 3.3) -/

/-- The place of one ring byte: slot, tile, row, byte in the row. -/
structure Loc where
  slot : Nat
  tile : Nat
  row : Nat
  byte : Nat
  deriving DecidableEq, Repr

/-- The tile whose window holds an offset in a slot (R44). -/
def Plan.tileOfOffset (p : Plan) (u : Nat) : Option Nat :=
  p.tiles.findIdx? fun t => t.offset ≤ u && u < p.windowEnd t

/-- The address lies in the ring (R5). -/
def Plan.inRing (p : Plan) (a : Nat) : Bool := p.ringBase ≤ a && a < p.ringBase + p.slots * p.stride

/-- The place of the byte at an address: none outside the ring, outside all tiles, or in padding (R44, R45). -/
def Plan.locate (p : Plan) (a : Nat) : Option Loc :=
  if p.inRing a then
    let u := (a - p.ringBase) % p.stride
    match p.tileOfOffset u with
    | none => none
    | some t =>
      let v := u - (p.tileAt t).offset
      let b := v % (p.tileAt t).pitch
      if b < p.rowLen (p.tileAt t) then
        some { slot := (a - p.ringBase) / p.stride, tile := t, row := v / (p.tileAt t).pitch, byte := b }
      else none
  else none

/-- A tracker piece: slot, tile, row and byte span [first, stop) (R45). -/
structure Piece where
  slot : Nat
  tile : Nat
  row : Nat
  first : Nat
  stop : Nat
  deriving DecidableEq, Repr

/-- Put the place of one byte before the pieces of the bytes that follow it. -/
def Piece.cons (l : Loc) : List Piece → List Piece
  | [] => [{ slot := l.slot, tile := l.tile, row := l.row, first := l.byte, stop := l.byte + 1 }]
  | q :: qs =>
    if q.slot = l.slot ∧ q.tile = l.tile ∧ q.row = l.row ∧ q.first = l.byte + 1 then { q with first := l.byte } :: qs
    else { slot := l.slot, tile := l.tile, row := l.row, first := l.byte, stop := l.byte + 1 } :: q :: qs

/-- The tracker pieces of the `n` bytes from an address, in ascending address order: the bytes are cut at slot, window and
row ends, and what lies outside all tiles or in padding is dropped (R44, R45, R46). -/
def Plan.trackerPieces (p : Plan) : Nat → Nat → List Piece
  | _, 0 => []
  | a, n + 1 =>
    match p.locate a with
    | none => p.trackerPieces (a + 1) n
    | some l => Piece.cons l (p.trackerPieces (a + 1) n)

/-! ### The reverse map (section 3.5) -/

/-- A source run of R51: its first address and its placement at output columns [xa, xb). -/
structure Run where
  start : Nat
  xa : Nat
  xb : Nat
  mirror : Bool
  deriving DecidableEq, Repr

/-- The run of one tile for the columns [x0, x1) of line `y` in slot `s`, if they meet (R51). -/
def Plan.runOf (p : Plan) (s y x0 x1 : Nat) (t : Tile) : Option Run :=
  let xa := max x0 t.x
  let xb := min x1 (t.x + t.active)
  if xa < xb then
    let cl := if t.mirror then t.storedCol (xb - 1) else t.storedCol xa
    some { start := p.rowStart s t (p.rowOf t y) + cl * p.bpp, xa := xa, xb := xb, mirror := t.mirror }
  else none

/-- The source runs of line `y` of slot `s` over the columns [x0, x1), in ascending x (R51). -/
def Plan.runs (p : Plan) (s y x0 x1 : Nat) : List Run :=
  match p.stripOf y with
  | none => []
  | some σ => (p.tilesOf σ).filterMap fun t => p.runOf s y x0 x1 (p.tileAt t)

/-- The read requests of a run of `n` bytes: cut at every multiple of 256, from byte `off` of the run (R122). -/
def Run.requests (bpp : Nat) (r : Run) : Nat → Nat → Nat → List FetchReq
  | 0, _, _ => []
  | fuel + 1, off, n =>
    if n = 0 then [] else
      let a := r.start + off
      let len := min n (256 - a % 256)
      { addr := a, len := len, off := off, xa := r.xa, xb := r.xb, mirror := r.mirror, bpp := bpp } ::
        Run.requests bpp r fuel (off + len) (n - len)

/-- All the read requests of a run, in rising address (R122). -/
def Run.fetch (bpp : Nat) (r : Run) : List FetchReq :=
  Run.requests bpp r ((r.xb - r.xa) * bpp) 0 ((r.xb - r.xa) * bpp)

/-- The place in the line of byte `k` of a run (R51): in a mirrored tile pixels go to reversed columns, each with its
bytes in stored order. -/
def FetchReq.place (q : FetchReq) (k : Nat) : Nat :=
  let i := k / q.bpp
  (if q.mirror then q.xb - 1 - i else q.xa + i) * q.bpp + k % q.bpp

/-- Put the bytes of a response into the line, from byte `k` of the run (R122). -/
def FetchReq.fill (q : FetchReq) : Nat → List Byte → List Byte → List Byte
  | _, [], line => line
  | k, b :: bs, line => FetchReq.fill q (k + 1) bs (line.set (q.place k) b)

/-! ### The staging area (section 12.5, R199) -/

/-- A snapshot's fields as the numbers their bytes hold; entries beyond the counts are not read. -/
structure Staged where
  ringBase : Nat
  stride : Nat
  slots : Nat
  speed : Nat
  lockWindow : Nat
  period : Nat
  advance : Nat
  width : Nat
  height : Nat
  bpp : Nat
  conceal : Nat
  order : Nat
  source : Nat
  rowUnit : Nat
  rowCount : Nat
  startAllowance : Nat
  retStart : Nat
  retEnd : Nat
  stripCount : Nat
  tileCount : Nat
  strips : List Strip
  tiles : List Tile
  deriving DecidableEq, Repr

/-- Strip entry σ, at 0x040 + 8σ. -/
def Memory.strip (m : Memory) (σ : Nat) : Strip :=
  { first := m.readNat (0x040 + 8 * σ) 2
    height := m.readNat (0x040 + 8 * σ + 2) 2
    up := (m.read (0x040 + 8 * σ + 4)).getLsbD 0 }

/-- Tile entry t, at 0x080 + 32t. -/
def Memory.tile (m : Memory) (t : Nat) : Tile :=
  { strip := m.readNat (0x080 + 32 * t) 1
    lead := m.readNat (0x080 + 32 * t + 1) 1
    mirror := (m.read (0x080 + 32 * t + 2)).getLsbD 0
    offset := m.readNat (0x080 + 32 * t + 4) 4
    pitch := m.readNat (0x080 + 32 * t + 8) 4
    cols := m.readNat (0x080 + 32 * t + 12) 2
    trimLeft := m.readNat (0x080 + 32 * t + 14) 2
    trimRight := m.readNat (0x080 + 32 * t + 16) 2
    x := m.readNat (0x080 + 32 * t + 18) 2 }

/-- Read a snapshot of the staging shadow by the staging table (R199). -/
def Memory.staged (m : Memory) : Staged :=
  { ringBase := m.readNat 0x000 8
    stride := m.readNat 0x008 4
    slots := m.readNat 0x00C 1
    speed := m.readNat 0x00D 1
    lockWindow := m.readNat 0x00E 2
    period := m.readNat 0x010 4
    advance := m.readNat 0x014 4
    width := m.readNat 0x018 2
    height := m.readNat 0x01A 2
    bpp := m.readNat 0x01C 1
    conceal := m.readNat 0x01D 1
    order := m.readNat 0x01E 1
    source := m.readNat 0x01F 1
    rowUnit := m.readNat 0x020 1 % 8
    rowCount := m.readNat 0x021 1 % 64
    startAllowance := m.readNat 0x024 3
    retStart := m.readNat 0x028 8
    retEnd := m.readNat 0x030 8
    stripCount := m.readNat 0x038 1
    tileCount := m.readNat 0x039 1
    strips := (List.range (min 4 (m.readNat 0x038 1))).map m.strip
    tiles := (List.range (min 8 (m.readNat 0x039 1))).map m.tile }

/-- The commit sequence: the low 16 bits of the commit word (R19). -/
def Memory.commitSeq (m : Memory) : BitVec 16 := .ofNat 16 (m.readNat 0xFFC 2)

/-- The plan a snapshot holds, before clamping. -/
def Staged.toPlan (g : Staged) : Plan :=
  { ringBase := g.ringBase, stride := g.stride, slots := g.slots, speed := g.speed, lockWindow := g.lockWindow
    period := g.period, advance := g.advance, width := g.width, height := g.height, bpp := g.bpp
    conceal := match g.conceal with | 0 => .repeatLine | 1 => .black | _ => .raw
    order := match g.order with | 0 => .raster | _ => .arrival
    source := match g.source with | 0 => .sensor | _ => .test
    rowUnit := g.rowUnit, rowCount := g.rowCount, startAllowance := g.startAllowance
    retStart := g.retStart, retEnd := g.retEnd, strips := g.strips, tiles := g.tiles }

end Sys2Proof.Machine
end

