-- ==== Sys2Proof/Machine/Validate.lean ====
section
/-! DEFINITION. Validation of a snapshot in its eight groups, and the clamps (section 2.2). -/

namespace Sys2Proof.Machine

/-- Two address ranges [a, b) and [c, d) share a byte. -/
def overlaps (a b c d : Nat) : Bool := a < b && c < d && a < d && c < b

/-- RING (R20). A base of exactly 2^34 with K = 0 on 16 GiB passes here, as R20's sum has it, and fails under SLOTS; R199's
example reads otherwise (DESIGN CHOICE, log 39). -/
def Staged.ringOk (planAddr memBytes : Nat) (g : Staged) : Bool :=
  g.ringBase % 4096 = 0 && g.stride % 4096 = 0 && g.stride ≠ 0 && g.stride ≤ 268435456 &&
  g.ringBase + g.slots * g.stride ≤ memBytes &&
  !overlaps g.ringBase (g.ringBase + g.slots * g.stride) planAddr (planAddr + 65536)

/-- SLOTS (R20). -/
def Staged.slotsOk (g : Staged) : Bool := 4 ≤ g.slots && g.slots ≤ 32

/-- SPEED (R20). -/
def Staged.speedOk (g : Staged) : Bool := [1, 2, 3, 4, 6, 8].contains g.speed

/-- PERIOD (R20). -/
def Staged.periodOk (g : Staged) : Bool := 1000000 ≤ g.period && g.period ≤ 8000000

/-- FORMAT (R20, R199). -/
def Staged.formatOk (g : Staged) : Bool :=
  64 ≤ g.width && g.width ≤ 8192 && 16 ≤ g.height && g.height ≤ 4352 && 1 ≤ g.bpp && g.bpp ≤ 4 &&
  g.conceal ≤ 2 && g.order ≤ 1 && g.source ≤ 1

/-- Strips, in index order, tile the lines from `y` to `h` exactly (R41). -/
def stripsCover (h : Nat) : Nat → List Strip → Bool
  | y, [] => y = h
  | y, s :: ss => s.first = y && stripsCover h (y + s.height) ss

/-- STRIPS (R21, R41). -/
def Staged.stripsOk (g : Staged) : Bool :=
  1 ≤ g.stripCount && g.stripCount ≤ 4 && g.strips.all (fun s => 1 ≤ s.height) && stripsCover g.height 0 g.strips

/-- Tiles, in rising X, abut from column `x` to column `w` (R42). -/
def tilesAbut (w : Nat) : Nat → List Tile → Bool
  | x, [] => x = w
  | x, t :: ts => t.x = x && tilesAbut w (x + t.active) ts

/-- The limits of one tile (R21). -/
def Plan.tileOk (p : Plan) (t : Tile) : Bool :=
  t.strip < p.strips.length && t.offset % 64 = 0 && t.pitch % 64 = 0 && t.cols * p.bpp ≤ t.pitch &&
  t.pitch ≤ 65536 && 1 ≤ t.cols && t.cols ≤ 8192 && t.lead ≤ 64 && t.trimLeft + t.trimRight < t.cols

/-- The windows of two tiles share no byte of a slot (R43). -/
def Plan.windowsApart (p : Plan) (t u : Tile) : Bool := p.windowEnd t ≤ u.offset || p.windowEnd u ≤ t.offset

/-- Every tile's window lies in the stride and apart from those of the later tiles (R43). -/
def Plan.windowsOk (p : Plan) : List Tile → Bool
  | [] => true
  | t :: ts => p.windowEnd t ≤ p.stride && ts.all (p.windowsApart t) && p.windowsOk ts

/-- TILES (R21, R42, R43). -/
def Staged.tilesOk (g : Staged) : Bool :=
  let p := g.toPlan
  1 ≤ g.tileCount && g.tileCount ≤ 8 && p.tiles.all p.tileOk &&
  (List.range p.strips.length).all (fun σ =>
    1 ≤ (p.tilesOf σ).length && (p.tilesOf σ).length ≤ 4 && tilesAbut p.width 0 ((p.tilesOf σ).map p.tileAt)) &&
  p.windowsOk p.tiles

/-- RETURN (R22). An end of exactly 2^34 on 16 GiB passes, as R22 has it; R194's sentence reads otherwise (DESIGN CHOICE,
log 40). -/
def Staged.returnOk (planAddr memBytes : Nat) (g : Staged) : Bool :=
  (g.retStart = 0 && g.retEnd = 0) ||
  (g.retStart % 64 = 0 && g.retEnd % 64 = 0 && g.retStart < g.retEnd &&
   4096 ≤ g.retEnd - g.retStart && g.retEnd - g.retStart ≤ 67108864 && g.retEnd ≤ memBytes &&
   !overlaps g.retStart g.retEnd planAddr (planAddr + 65536) &&
   !overlaps g.retStart g.retEnd g.ringBase (g.ringBase + g.slots * g.stride))

/-- The first group with a failing check, in the fixed order; none for a valid snapshot (R20). -/
def Staged.failure (planAddr memBytes : Nat) (g : Staged) : Option Group :=
  if !g.ringOk planAddr memBytes then some .ring
  else if !g.slotsOk then some .slots
  else if !g.speedOk then some .speed
  else if !g.periodOk then some .period
  else if !g.formatOk then some .format
  else if !g.stripsOk then some .strips
  else if !g.tilesOk then some .tiles
  else if !g.returnOk planAddr memBytes then some .ret
  else none

/-- The fields the clamps of R23 change. -/
def Plan.clampSet (p : Plan) : ClampSet :=
  { advance := p.period ≤ p.advance
    lockWindow := p.lockWindow = 0 || 4095 < p.lockWindow
    rowCount := p.rowCount = 0
    startAllowance := p.startAllowance = 0 }

/-- The clamps of R23. -/
def Plan.clamp (p : Plan) : Plan :=
  { p with
    advance := if p.period ≤ p.advance then p.period - 1 else p.advance
    lockWindow := if p.lockWindow = 0 then 1 else if 4095 < p.lockWindow then 4095 else p.lockWindow
    rowCount := if p.rowCount = 0 then 1 else p.rowCount
    startAllowance := if p.startAllowance = 0 then p.period / p.speed else p.startAllowance }

end Sys2Proof.Machine
end

