-- ==== Sys2Proof/Machine/Formats.lean ====
section
/-! DEFINITION. The byte layouts of chapter 12 and the two CRCs. -/

namespace Sys2Proof.Machine

/-- Bytes cut or filled with zeros to a length: unused bytes of what the part writes are 0 (R194). -/
def padTo (n : Nat) (bs : List Byte) : List Byte := bs.take n ++ List.replicate (n - bs.length) 0

/-! ### Codes (R196) -/

/-- Status codes. -/
def Status.code : Status → Nat
  | .done => 0 | .busy => 1 | .full => 2 | .gone => 3 | .range => 4 | .parked => 5 | .fault => 6 | .disabled => 7
  | .invalid => 8 | .cancelled => 9 | .unplanned => 10

/-- Genlock state codes. -/
def Genlock.code : Genlock → Nat
  | .free => 0 | .locking => 1 | .locked => 2

/-- HEAD-STATUS occasion codes. -/
def Occasion.code : Occasion → Nat
  | .anchor => 0 | .timer => 1

/-- Plan state codes. -/
def PlanState.code : PlanState → Nat
  | .unplanned => 0 | .active => 1 | .activePending => 2

/-- Rejection reason codes; none is 0. -/
def Group.code : Group → Nat
  | .ring => 1 | .slots => 2 | .speed => 3 | .period => 4 | .format => 5 | .strips => 6 | .tiles => 7 | .ret => 8

/-- Gate state codes. -/
def Gate.code : Gate → Nat
  | .running => 0 | .countdown _ => 1 | .stepping => 2 | .paused => 3

/-- Slot state codes. -/
def SlotState.code : SlotState → Nat
  | .empty => 0 | .filling => 1 | .closed => 2

/-- The countdown n, 0 in every state other than COUNTDOWN (R89). -/
def Gate.count : Gate → Nat
  | .countdown n => n.toNat
  | .running => 0
  | .stepping => 0
  | .paused => 0

/-- The 16-bit signed value of a phase error, at its bound when it lies beyond (R118, R194). -/
def saturate16 (e : BitVec 32) : BitVec 16 := BitVec.ofInt 16 (max (-32768) (min 32767 e.toInt))

/-- D in bits 0 … 14 and D-valid in bit 15 (R196, R200). -/
def delayField (d : Nat) (valid : Bool) : Nat := d % 32768 + 32768 * valid.toNat

/-! ### Control entries (section 12.3) -/

/-- Bits numbered from 0, the first of the list. -/
def bitsNat : List Bool → Nat
  | [] => 0
  | b :: bs => b.toNat + 2 * bitsNat bs

/-- The 16 bytes of a control entry (R196). -/
def Entry.bytes : Entry → List Byte
  | .response kind tag status data =>
    padTo 16 ([1, kind] ++ leBytes 2 tag.toNat ++ [BitVec.ofNat 8 status.code, BitVec.ofNat 8 data.length] ++
      padTo 8 data)
  | .replayEnd status tag frame linesSent =>
    padTo 16 ([2, BitVec.ofNat 8 status.code] ++ leBytes 2 tag.toNat ++ leBytes 3 frame.toNat ++ [0] ++
      leBytes 2 linesSent)
  | .echo seq stamp => padTo 16 ([3, 0] ++ leBytes 2 seq.toNat ++ leBytes 4 stamp.toNat)
  | .headStatus occasion genlock lockRun speed time base delay delayValid phaseError =>
    [4, BitVec.ofNat 8 (occasion.code + 2 * genlock.code + 8 * (lockRun % 4)), BitVec.ofNat 8 speed, 0] ++
      leBytes 4 time.toNat ++ leBytes 4 base.toNat ++ leBytes 2 (delayField delay delayValid) ++
      leBytes 2 (saturate16 phaseError).toNat
  | .returnDrop count time => padTo 16 ([5, 0] ++ leBytes 2 count.toNat ++ leBytes 4 time.toNat)
  | .watch id value time hits =>
    [6, BitVec.ofNat 8 (id % 8 + 16 * value.length)] ++ padTo 8 value ++ leBytes 4 time.toNat ++ leBytes 2 hits.toNat
  | .frameClosed frame slot phase base damaged stalled rewrites =>
    padTo 16 ([7] ++ leBytes 3 frame.toNat ++ [BitVec.ofNat 8 (slot % 32 + 32 * (phase % 8)),
      BitVec.ofNat 8 (bitsNat stalled)] ++ leBytes 2 damaged ++ leBytes 4 base.toNat ++ leBytes 2 rewrites.toNat)

/-- Write the boundary's head time into the stamp of an ECHO entry; other entries stay (R103, R152). -/
def Entry.stamp (t : HeadTime) : Entry → Entry
  | .echo seq _ => .echo seq t
  | e => e

/-! ### The CRCs (R157, R160) -/

/-- One bit of the downlink CRC: shift left, reduce by 0x04C11DB7 when a 1 leaves. -/
def crc32Bit (r : BitVec 32) : BitVec 32 := if r.msb then (r <<< 1) ^^^ 0x04C11DB7 else r <<< 1

/-- Apply a function a number of times. -/
def iter {α : Type} (f : α → α) : Nat → α → α
  | 0, x => x
  | n + 1, x => iter f n (f x)

/-- Take one byte into the downlink CRC register, most significant bit first. -/
def crc32Byte (r : BitVec 32) (b : Byte) : BitVec 32 := iter crc32Bit 8 (r ^^^ (b.zeroExtend 32 <<< 24))

/-- The downlink CRC: register from all ones, final value complemented (R157). -/
def crc32 (bs : List Byte) : BitVec 32 := ~~~ (bs.foldl crc32Byte 0xFFFFFFFF)

/-- One bit of the uplink CRC, polynomial 0x1021. -/
def crc16Bit (r : BitVec 16) : BitVec 16 := if r.msb then (r <<< 1) ^^^ 0x1021 else r <<< 1

/-- Take one byte into the uplink CRC register, most significant bit first. -/
def crc16Byte (r : BitVec 16) (b : Byte) : BitVec 16 := iter crc16Bit 8 (r ^^^ (b.zeroExtend 16 <<< 8))

/-- The uplink CRC: register from all ones, not complemented (R160). -/
def crc16 (bs : List Byte) : BitVec 16 := bs.foldl crc16Byte 0xFFFF

/-! ### Downlink cells (section 12.2) -/

/-- Cell kinds (R145, R196). -/
inductive CellKind where
  | fill | live | replay | control
  deriving DecidableEq, Repr

/-- Cell kind codes (R196). -/
def CellKind.code : CellKind → Nat
  | .fill => 0 | .live => 1 | .replay => 2 | .control => 3

/-- The fields of a cell header (R195). -/
structure CellHeader where
  kind : CellKind
  concealed : Bool
  test : Bool
  lastCell : Bool
  lastLine : Bool
  seq : BitVec 16
  frame : FrameNo
  phase : Nat
  base : BitVec 32
  line : Nat
  index : Nat
  cells : Nat
  time : HeadTime
  payloadLen : Nat
  deriving DecidableEq, Repr

/-- The 32 header bytes (R195). -/
def CellHeader.bytes (h : CellHeader) : List Byte :=
  padTo 32 ([BitVec.ofNat 8 h.kind.code, BitVec.ofNat 8 (bitsNat [h.concealed, h.test, h.lastCell, h.lastLine])] ++
    leBytes 2 h.seq.toNat ++ leBytes 3 h.frame.toNat ++ [BitVec.ofNat 8 h.phase] ++ leBytes 4 h.base.toNat ++
    leBytes 2 h.line ++ [BitVec.ofNat 8 h.index, BitVec.ofNat 8 h.cells] ++ leBytes 4 h.time.toNat ++
    leBytes 2 h.payloadLen)

/-- The 1,060 bytes of a cell: header, payload padded with zeros to 1,024 bytes, CRC (R145, R157, R195). -/
def cellBytes (h : CellHeader) (payload : List Byte) : List Byte :=
  let body := h.bytes ++ padTo 1024 payload
  body ++ leBytes 4 (crc32 body).toNat

/-! ### The status record and the producer word (section 12.6) -/

/-- The result, reason, clamp-set and sequence fields of the last commit (R200). -/
def CommitResult.fields : CommitResult → Nat × Nat × Nat × Nat
  | .none => (0, 0, 0, 0)
  | .accepted seq c => (1, 0, bitsNat [c.advance, c.lockWindow, c.rowCount, c.startAllowance], seq.toNat)
  | .rejected seq reason => (2, reason.code, 0, seq.toNat)

/-- The twenty counters in the order of R37. -/
def Counters.toList (c : Counters) : List (BitVec 16) :=
  [c.memoryErrors, c.rejectedCommits, c.lateWrites, c.strayWrites, c.disturbedWrites, c.forcedCloses,
   c.skippedCaptures, c.phaseSteps, c.echoOutliers, c.abandonedEchoes, c.liveDrops, c.droppedEntries, c.badFrames,
   c.missingFrames, c.unknownOrders, c.overrunFrames, c.misplacedReferences, c.discardedOrders, c.returnDrops,
   c.refusedConsumers]

/-- A slot entry of the record: the frame number is 0 when EMPTY (R194, R200). -/
def SlotView.bytes (v : SlotView) : List Byte :=
  leBytes 3 (if v.state = .empty then 0 else v.frame.toNat) ++
    [BitVec.ofNat 8 (v.state.code + 4 * v.held.toNat + 8 * v.live.toNat + 16 * v.replay.toNat)]

/-- The 512 bytes of a status record (R200). -/
def StatusRecord.bytes (r : StatusRecord) : List Byte :=
  let f := r.last.fields
  leBytes 4 r.number.toNat ++ leBytes 4 r.time.toNat ++
  [BitVec.ofNat 8 r.planState.code, BitVec.ofNat 8 f.1, BitVec.ofNat 8 f.2.1, BitVec.ofNat 8 f.2.2.1] ++
  leBytes 2 ((r.workingSeq.getD 0).toNat) ++ leBytes 2 ((r.pendingSeq.getD 0).toNat) ++ leBytes 2 f.2.2.2 ++
  [BitVec.ofNat 8 r.genlock.code, BitVec.ofNat 8 r.uplinkLocked.toNat] ++
  leBytes 2 (delayField r.delay r.delayValid) ++
  [BitVec.ofNat 8 r.gate.code, BitVec.ofNat 8 r.causes.toNat] ++
  leBytes 4 r.phaseError.toNat ++ leBytes 2 r.gate.count ++ leBytes 2 r.credit ++
  leBytes 4 r.frameCounter.toNat ++ leBytes 4 r.period ++ padTo 8 [BitVec.ofNat 8 r.speed] ++
  leBytes 8 r.producer ++ (r.counters.toList.flatMap fun c => leBytes 2 c.toNat) ++ List.replicate 32 0 ++
  padTo 128 (r.slots.flatMap SlotView.bytes) ++ List.replicate 252 0 ++ leBytes 4 r.number.toNat

/-- The bytes of one half of the record: the first or the last 256 (R34, R200). -/
def StatusRecord.half (r : StatusRecord) (second : Bool) : List Byte :=
  if second then r.bytes.drop 256 else r.bytes.take 256

end Sys2Proof.Machine
end

