-- ==== Sys2Proof/Machine/Readers.lean ====
section
/-! DEFINITION. The two line readers (chapter 7): buffers, fetches, concealment, the TEST source, the choice of lines,
and the replay requests. -/

namespace Sys2Proof.Machine

/-! ### Line buffers (section 7.1) -/

/-- A buffer of a reader. -/
def Fetcher.buf (f : Fetcher) : BufId → LineBuf
  | .a => f.bufA
  | .b => f.bufB

/-- Replace a buffer. -/
def Fetcher.setBuf (f : Fetcher) (i : BufId) (x : LineBuf) : Fetcher :=
  match i with
  | .a => { f with bufA := x }
  | .b => { f with bufB := x }

/-- A buffer not EMPTY with its discard flag clear is occupied (R120). -/
def LineBuf.occupied (x : LineBuf) : Bool := x.state ≠ .empty && !x.discard

/-- An occupied buffer is FETCHING (R121). -/
def Fetcher.fetching (f : Fetcher) : Bool :=
  (f.bufA.occupied && f.bufA.state = .fetching) || (f.bufB.occupied && f.bufB.state = .fetching)

/-- An EMPTY buffer, the first of the two when both are (log 13). -/
def Fetcher.emptyBuf (f : Fetcher) : Option BufId :=
  if f.bufA.state = .empty then some .a else if f.bufB.state = .empty then some .b else none

/-- The buffer a fetch may begin in: an EMPTY one while no occupied buffer is FETCHING (R121). -/
def Fetcher.vacancy (f : Fetcher) : Option BufId := if f.fetching then none else f.emptyBuf

/-- The reader has a cell to offer: its head buffer is READY or SENDING (R120). -/
def Fetcher.offers (f : Fetcher) : Bool :=
  match f.order with
  | [] => false
  | i :: _ => (f.buf i).state = .ready || (f.buf i).state = .sending

/-- Present the next request of a buffer's fetch (R122). -/
def Fetcher.presentNext (f : Fetcher) (i : BufId) : Fetcher :=
  match (f.buf i).todo with
  | [] => f
  | q :: qs => { f.setBuf i { f.buf i with todo := qs } with req := some (i, q) }

/-- No request of the buffer is presented and not granted. -/
def Fetcher.nonePresented (f : Fetcher) (i : BufId) : Bool :=
  match f.req with
  | none => true
  | some (j, _) => j ≠ i

/-- The fetch ends when every request has been granted and answered: the buffer becomes READY (R123). -/
def Fetcher.endFetch (f : Fetcher) (i : BufId) : Fetcher :=
  let x := f.buf i
  if x.state = .fetching && !x.discard && x.todo.isEmpty && f.nonePresented i && x.outstanding = 0 then
    f.setBuf i { x with state := .ready }
  else f

/-- Drop the line of a buffer (R125). With no granted request outstanding a FETCHING buffer is EMPTY at once (log 27). -/
def Fetcher.dropBuf (f : Fetcher) (i : BufId) : Fetcher :=
  let x := f.buf i
  match x.state with
  | .empty => f
  | .fetching =>
    if x.discard then f
    else
      let g := { f with order := f.order.filter (· ≠ i), req := if f.nonePresented i then f.req else none }
      if x.outstanding = 0 then g.setBuf i .vacant else g.setBuf i { x with discard := true, todo := [] }
  | .ready => { f.setBuf i .vacant with order := f.order.filter (· ≠ i) }
  | .sending => { f.setBuf i .vacant with order := f.order.filter (· ≠ i) }

/-- Drop every occupied buffer (R135, R143). -/
def Fetcher.dropAll (f : Fetcher) : Fetcher := (f.dropBuf .a).dropBuf .b

/-- A reader's buffers. -/
def Dev.fetcher (d : Dev) : ReaderId → Fetcher
  | .live => d.live.fetcher
  | .replay => d.replay.fetcher

/-- Change a reader's buffers. -/
def Dev.updFetcher (r : ReaderId) (f : Fetcher → Fetcher) (d : Dev) : Dev :=
  match r with
  | .live => { d with live := { d.live with fetcher := f d.live.fetcher } }
  | .replay => { d with replay := { d.replay with fetcher := f d.replay.fetcher } }

/-! ### Building a line (section 7.2) -/

/-- A row of a tile lies in a range of the tile's damage list (R75). -/
def Slot.rowDamaged (s : Slot) (t r : Nat) : Bool :=
  (s.damage.getD t []).any fun g => g.first ≤ r && r ≤ g.last

/-- The segment of tile `t` in line `y` is damaged (R121, R75). -/
def Plan.segDamaged (p : Plan) (rec_ : Slot) (y t : Nat) : Bool := rec_.rowDamaged t (p.rowOf (p.tileAt t) y)

/-- The runs a segment is fetched from: its own row, nothing, or line y − 1 over the same columns (R126, R127). -/
def Plan.segRuns (p : Plan) (rec_ : Slot) (s y t : Nat) : List Run :=
  let tile := p.tileAt t
  let own := (p.runOf s y 0 p.width tile).toList
  if p.segDamaged rec_ y t then
    match p.conceal with
    | .raw => own
    | .black => []
    | .repeatLine => if y = 0 then [] else p.runs s (y - 1) tile.x (tile.x + tile.active)
  else own

/-- The tiles of a line, in rising X. -/
def Plan.lineTiles (p : Plan) (y : Nat) : List Nat :=
  match p.stripOf y with
  | none => []
  | some σ => p.tilesOf σ

/-- All read requests of a line, in the order they are presented (R122, R127). -/
def Plan.lineRequests (p : Plan) (rec_ : Slot) (s y : Nat) : List FetchReq :=
  (p.lineTiles y).flatMap fun t => (p.segRuns rec_ s y t).flatMap (Run.fetch p.bpp)

/-- The bytes of a line under the TEST source: (x + y + f) mod 256 (R128). -/
def Plan.testLine (p : Plan) (f : FrameNo) (y : Nat) : List Byte :=
  (List.range (p.width * p.bpp)).map fun i => BitVec.ofNat 8 (i / p.bpp + y + f.toNat)

/-- The buffer at the beginning of a fetch (R121, R126, R128). A line without requests is READY at once (R123). -/
def Plan.beginBuf (p : Plan) (rec_ : Slot) (s y : Nat) (last : Bool) : LineBuf :=
  let x := { LineBuf.vacant with state := .fetching, slot := s, frame := rec_.frame, line := y, last := last }
  match p.source with
  | .test => { x with state := .ready, test := true, data := p.testLine rec_.frame y }
  | .sensor =>
    let todo := p.lineRequests rec_ s y
    { x with state := if todo.isEmpty then .ready else .fetching
             concealed := (p.lineTiles y).any (p.segDamaged rec_ y)
             data := List.replicate (p.width * p.bpp) 0
             todo := todo }

/-- Begin the fetch of a line in a buffer, presenting its first request (R121, R122). -/
def Fetcher.begin_ (f : Fetcher) (p : Plan) (rec_ : Slot) (s y : Nat) (last : Bool) (i : BufId) : Fetcher :=
  Fetcher.presentNext { f.setBuf i (p.beginBuf rec_ s y last) with order := f.order ++ [i] } i

/-! ### Sendable lines (section 4.6) -/

/-- A free front: what a tile reads as when no context follows it. -/
def Front.start : Front := { row := 0, byte := 0, seen := false, lastAdvance := 0, status := .running }

/-- A context by its number. -/
def Tracker.ctx (t : Tracker) : CtxId → Option Context
  | .c0 => t.ctx0
  | .c1 => t.ctx1

/-- The number of the context bound to a slot (R53). -/
def Tracker.boundTo (t : Tracker) (s : Nat) : Option CtxId :=
  if t.ctx0.any (fun c => c.slot = s) then some .c0
  else if t.ctx1.any (fun c => c.slot = s) then some .c1 else none

/-- Line `y` of the frame in slot `s` is sendable (R74). -/
def Dev.sendable (d : Dev) (p : Plan) (s y : Nat) : Bool :=
  match (d.ring.slot s).state with
  | .empty => false
  | .closed => true
  | .filling =>
    match (d.tracker.boundTo s).bind d.tracker.ctx with
    | none => false
    | some c => (p.lineTiles y).all fun t =>
        let g := c.fronts.getD t .start
        g.status ≠ .running || p.rowOf (p.tileAt t) y < g.row

/-- The live reader may send the line: it is sendable, or the source is TEST (R128, R131). -/
def Dev.liveMaySend (d : Dev) (p : Plan) (s y : Nat) : Bool := p.source = .test || d.sendable p s y

/-! ### The live reader (section 7.3) -/

/-- ARRIVAL order: the first strip, from the rotation position on, whose next line may be sent (R133). -/
def Dev.arrivalChoice (d : Dev) (p : Plan) (s : Nat) : Option Nat :=
  let n := p.strips.length
  ((List.range n).map fun k => (d.live.rotation + k) % n).find? fun σ =>
    let q := d.live.strips.getD σ { line := 0, remaining := 0 }
    0 < q.remaining && d.liveMaySend p s q.line

/-- The line the live order chooses, with the strip that gives it in ARRIVAL order (R131, R132, R133). -/
def Dev.liveChoice (d : Dev) (p : Plan) (s : Nat) : Option (Nat × Nat) :=
  match p.order with
  | .raster => if d.liveMaySend p s d.live.rasterPtr then some (d.live.rasterPtr, 0) else none
  | .arrival => (d.arrivalChoice p s).map fun σ => ((d.live.strips.getD σ { line := 0, remaining := 0 }).line, σ)

/-- The live order after a line of strip σ was chosen (R132, R133). -/
def LiveReader.advance (l : LiveReader) (p : Plan) (σ : Nat) : LiveReader :=
  match p.order with
  | .raster => { l with rasterPtr := l.rasterPtr + 1 }
  | .arrival =>
    { l with
      strips := l.strips.modify σ fun q =>
        { line := if (p.stripAt σ).up then q.line - 1 else q.line + 1, remaining := q.remaining - 1 }
      rotation := if σ + 1 < p.strips.length then σ + 1 else 0 }

/-- Begin the fetch of the next line of the active frame, if R131's conditions hold. -/
def Dev.liveBegin? (d : Dev) : Option Dev :=
  match d.plan?, d.live.active, d.live.fetcher.vacancy with
  | some p, some s, some i =>
    if d.live.handed < p.height then
      match d.liveChoice p s with
      | none => none
      | some (y, σ) =>
        let l := { d.live.advance p σ with
          handed := d.live.handed + 1
          fetcher := d.live.fetcher.begin_ p (d.ring.slot s) s y (d.live.handed + 1 = p.height) i }
        some { d with live := l }
    else none
  | _, _, _ => none

/-- The live reader examines its conditions: at most one fetch begins for each of its two buffers (R131). -/
def Dev.liveExamine (d : Dev) : Dev :=
  match d.liveBegin? with
  | none => d
  | some e => e.liveBegin?.getD e

/-- Set up the line state of a new active frame (R132, R133). -/
def LiveReader.assign (l : LiveReader) (p : Plan) (s : Nat) : LiveReader :=
  let l' := { l with active := some s, handed := 0 }
  match p.order with
  | .raster => { l' with rasterPtr := 0 }
  | .arrival =>
    { l' with strips := p.strips.map fun g => { line := g.firstRead, remaining := g.height }, rotation := 0 }

/-- The ring controller offers a frame allocated at phase 0 to the live reader, which marks its slot (R130). -/
def Dev.liveOffer (p : Plan) (s : Nat) (d : Dev) : Dev :=
  let d := d.mark .live s
  match d.live.active, d.live.waiting with
  | none, _ => Dev.liveExamine { d with live := d.live.assign p s }
  | some _, none => { d with live := { d.live with waiting := some s } }
  | some _, some w =>
    let d := (d.unmark .live w).count fun c => { c with liveDrops := satInc c.liveDrops }
    { d with live := { d.live with waiting := some s } }

/-- The active frame is done: its mark goes, and the waiting frame, if any, becomes active (R134). -/
def Dev.liveDone (p : Plan) (d : Dev) : Dev :=
  match d.live.active with
  | none => d
  | some s =>
    let d := d.unmark .live s
    match d.live.waiting with
    | none => { d with live := { d.live with active := none } }
    | some w => { d with live := { d.live.assign p w with waiting := none } }

/-- A line of the live reader has been sent (R124, R131, R134). -/
def Dev.liveLineSent (p : Plan) (last : Bool) (d : Dev) : Dev :=
  Dev.liveExamine (if last then d.liveDone p else d)

/-- Apply and CLEAR drop the live reader's frames and lines (R135). The marks go with the slots or in CLEAR's step. -/
def LiveReader.dropFrames (l : LiveReader) : LiveReader :=
  { active := none, waiting := none, rasterPtr := 0, strips := [], rotation := 0, handed := 0,
    fetcher := l.fetcher.dropAll }

/-! ### The replay reader (section 7.4) -/

/-- The last line of a request (R138). -/
def ReplayReq.lastLine (q : ReplayReq) (h : Nat) : Nat :=
  if q.count = 0 then h - 1 else min (q.first + q.count - 1) (h - 1)

/-- The next line of the current request may be fetched: SENDING, not beyond the last line, and with a credit if paced
(R139). -/
def ReplayReader.mayFetch (r : ReplayReader) (c : CurrentReq) : Bool :=
  c.stage = .sending && c.nextLine ≤ c.lastLine && (!c.req.paced || 1 ≤ r.credit)

/-- Begin the fetch of the current request's next line, if R139's conditions hold. -/
def Dev.replayBegin? (d : Dev) : Option Dev :=
  match d.plan?, d.replay.current, d.replay.fetcher.vacancy with
  | some p, some c, some i =>
    if d.replay.mayFetch c then
      some { d with replay := { d.replay with
        current := some { c with nextLine := c.nextLine + 1 }
        credit := if c.req.paced then d.replay.credit - 1 else d.replay.credit
        fetcher := d.replay.fetcher.begin_ p (d.ring.slot c.slot) c.slot c.nextLine (c.nextLine = c.lastLine) i } }
    else none
  | _, _, _ => none

/-- The replay reader examines its conditions: at most one fetch begins for each of its two buffers (R139). -/
def Dev.replayExamine (d : Dev) : Dev :=
  match d.replayBegin? with
  | none => d
  | some e => e.replayBegin?.getD e

/-- Set the current request. -/
def Dev.setCurrent (c : Option CurrentReq) (d : Dev) : Dev := { d with replay := { d.replay with current := c } }

/-- A request enters ENDING before any line is sent (R138). Its slot, next line and last line, which the spec leaves open until
SENDING, hold 0 (DESIGN CHOICE, log 37). -/
def CurrentReq.endedAtStart (q : ReplayReq) (status : Status) : CurrentReq :=
  { req := q, stage := .ending status, slot := 0, marked := false, nextLine := 0, lastLine := 0, linesSent := 0 }

/-- A request enters SENDING: the slot is marked and the first fetches may begin (R138, R139). -/
def Dev.enterSending (q : ReplayReq) (s : Nat) (d : Dev) : Dev :=
  let h := (d.plan?.map (·.height)).getD 0
  Dev.replayExamine ((d.mark .replay s).setCurrent (some
    { req := q, stage := .sending, slot := s, marked := true, nextLine := q.first, lastLine := q.lastLine h,
      linesSent := 0 }))

/-- A request becomes current and is started (R138). In WAITING-CLOSE its next and last line, which the spec sets only on
entering SENDING, hold 0 (DESIGN CHOICE, log 37). -/
def Dev.startRequest (q : ReplayReq) (d : Dev) : Dev :=
  if q.cancelled then d.setCurrent (some (.endedAtStart q .cancelled))
  else match d.ring.lookup q.frame with
    | none => d.setCurrent (some (.endedAtStart q .gone))
    | some s =>
      if (d.ring.slot s).state = .filling then
        d.setCurrent (some { req := q, stage := .waitingClose, slot := s, marked := false, nextLine := 0, lastLine := 0,
                             linesSent := 0 })
      else d.enterSending q s

/-- The REPLAY-END entry of a request that ended (R140). -/
def CurrentReq.endEntry (c : CurrentReq) (status : Status) : Entry :=
  .replayEnd status c.req.tag c.req.frame c.linesSent

/-- The entry of a request in ENDING is admitted: its mark goes and it ceases to be current (R140). -/
def Dev.finishRequest (c : CurrentReq) (d : Dev) : Dev :=
  (if c.marked then d.unmark .replay c.slot else d).setCurrent none

/-- Offer the REPLAY-END of a request in ENDING, and let queued requests become current, as far as entries are admitted
(R136, R138, R140). -/
def Dev.replayPump : Nat → Dev → Dev
  | 0, d => d
  | n + 1, d =>
    match d.replay.current with
    | none =>
      match d.replay.queue with
      | [] => d
      | q :: qs => Dev.replayPump n (Dev.startRequest q { d with replay := { d.replay with queue := qs } })
    | some c =>
      match c.stage with
      | .waitingClose => d
      | .sending => d
      | .ending status =>
        if d.admits (c.endEntry status) then Dev.replayPump n ((d.enqueue (c.endEntry status)).finishRequest c) else d

/-- `replayPump` with room for the current request and every queued one. -/
def Dev.replaySettle (d : Dev) : Dev := d.replayPump (2 * d.replay.queue.length + 3)

/-- The ring controller tells the replay reader of the close of a slot's frame (R138). -/
def Dev.replayClosed (s : Nat) (d : Dev) : Dev :=
  match d.replay.current with
  | none => d
  | some c => if c.stage = .waitingClose && c.slot = s then d.enterSending c.req s else d

/-- A line of the replay reader has been sent (R124, R139): it counts, and the last one ends the request. -/
def Dev.replayLineSent (last : Bool) (d : Dev) : Dev :=
  match d.replay.current with
  | none => d
  | some c =>
    let c := { c with linesSent := c.linesSent + 1 }
    if last then (d.setCurrent (some { c with stage := .ending .done })).replaySettle
    else (d.setCurrent (some c)).replayExamine

/-- CANCEL of the current request (R141): it enters ENDING with status CANCELLED, its mark goes at once, its lines are
dropped; a request already in ENDING is left as it is. -/
def Dev.cancelRequest (d : Dev) : Dev :=
  match d.replay.current with
  | none => d
  | some c =>
    match c.stage with
    | .ending _ => d
    | .waitingClose | .sending =>
      let d := if c.marked then d.unmark .replay c.slot else d
      { d with replay := { d.replay with
          current := some { c with stage := .ending .cancelled, marked := false }
          fetcher := d.replay.fetcher.dropAll } }

/-- Each queued request gets its cancelled flag set and stays in its place (R141). -/
def Dev.cancelQueued (d : Dev) : Dev :=
  { d with replay := { d.replay with queue := d.replay.queue.map fun q => { q with cancelled := true } } }

/-- The current request holds no mark any more: CLEAR and apply take the marks from every slot (R96, R143). -/
def Dev.forgetMark (d : Dev) : Dev :=
  d.setCurrent (d.replay.current.map fun c => { c with marked := false })

/-- A change of the credit (R142), after which R139's conditions are examined. -/
def Dev.addCredit (n : Nat) (d : Dev) : Dev :=
  Dev.replayExamine { d with replay := { d.replay with credit := min 1023 (d.replay.credit + n) } }

/-! ### Fetch responses (R123, R125) -/

/-- The response to a granted request of a fetch: its bytes are placed, or zeros and the concealed flag on an error; the
last response ends the fetch, or empties a discarded buffer (R123, R125). -/
def Fetcher.respond (f : Fetcher) (i : BufId) (q : FetchReq) (data : Option (List Byte)) : Fetcher :=
  let x := f.buf i
  if x.discard then
    if x.outstanding ≤ 1 then f.setBuf i .vacant else f.setBuf i { x with outstanding := x.outstanding - 1 }
  else
    let bytes := data.getD (List.replicate q.len 0)
    let x' := { x with outstanding := x.outstanding - 1, concealed := x.concealed || data.isNone
                       data := q.fill q.off bytes x.data }
    (f.setBuf i x').endFetch i

/-- A reader's response, after which the reader examines its conditions (R123, R131, R139). -/
def Dev.fetchResponse (r : ReaderId) (i : BufId) (q : FetchReq) (data : Option (List Byte)) (d : Dev) : Dev :=
  let d := d.updFetcher r fun f => f.respond i q data
  match r with
  | .live => d.liveExamine
  | .replay => d.replayExamine

end Sys2Proof.Machine
end

