-- ==== Sys2Proof/Machine/Tracker.lean ====
section
/-! DEFINITION. The progress tracker (chapter 4): damage lists, fronts, deadlines, finish, stall, close and forced close. -/

namespace Sys2Proof.Machine

/-! ### Damage lists (section 4.3) -/

/-- A range overlaps [f, l] or touches it: one ends on the row just before the other begins (R62). -/
def RowRange.meets (f l : Nat) (r : RowRange) : Bool := r.first ≤ l + 1 && f ≤ r.last + 1

/-- Insert a range at its ascending place. -/
def insertRange (r : RowRange) : List RowRange → List RowRange
  | [] => [r]
  | q :: qs => if r.first < q.first then r :: q :: qs else q :: insertRange r qs

/-- The hull of [f, l] and the ranges it absorbs; an absorbed overflow flag stays (R62). -/
def hull (f l : Nat) (hit : List RowRange) : RowRange :=
  { first := hit.foldl (fun m r => min m r.first) f
    last := hit.foldl (fun m r => max m r.last) l
    overflow := hit.any (·.overflow) }

/-- Add the range [f, l] to the damage list of a tile of `rows` rows (R62, R63). -/
def addRange (rows f l : Nat) (list : List RowRange) : List RowRange :=
  let hit := list.filter (RowRange.meets f l)
  if hit.isEmpty then
    if list.length < 8 then insertRange { first := f, last := l, overflow := false } list
    else
      let at_ (i : Nat) : Nat := (list[i]?.map (·.first)).getD f
      let f0 := min f (min (at_ 6) (at_ 7))
      list.filter (fun r => r.first < f0) ++ [{ first := f0, last := rows - 1, overflow := true }]
  else insertRange (hull f l hit) (list.filter fun r => !r.meets f l)

/-- Add a range to the damage list of tile `t` in slot `s` (R61). -/
def Dev.addDamage (p : Plan) (s t f l : Nat) (d : Dev) : Dev :=
  d.updSlot s fun x => { x with damage := x.damage.modify t (addRange (p.rows (p.tileAt t)) f l) }

/-! ### Contexts -/

/-- Change a bound context. -/
def Dev.updCtx (i : CtxId) (f : Context → Context) (d : Dev) : Dev :=
  match i with
  | .c0 => { d with tracker := { d.tracker with ctx0 := d.tracker.ctx0.map f } }
  | .c1 => { d with tracker := { d.tracker with ctx1 := d.tracker.ctx1.map f } }

/-- Change the front of a tile in a context. -/
def Dev.updFront (i : CtxId) (t : Nat) (f : Front → Front) (d : Dev) : Dev :=
  d.updCtx i fun c => { c with fronts := c.fronts.modify t f }

/-- Free a context; it leaves the binding order (R70). -/
def Dev.freeCtx (i : CtxId) (d : Dev) : Dev :=
  let t := { d.tracker with order := d.tracker.order.filter (· ≠ i) }
  match i with
  | .c0 => { d with tracker := { t with ctx0 := none } }
  | .c1 => { d with tracker := { t with ctx1 := none } }

/-- Bind the lowest-numbered free context to a slot (R53). -/
def Dev.bindCtx (p : Plan) (s : Nat) (start : HeadTime) (d : Dev) : Dev :=
  let t := d.tracker
  let c : Context := { binding := t.nextBinding, slot := s, frameStart := start,
                       fronts := List.replicate p.tiles.length .start }
  match t.ctx0, t.ctx1 with
  | none, _ =>
    { d with tracker := { t with ctx0 := some c, order := t.order ++ [.c0], nextBinding := t.nextBinding + 1 } }
  | some _, none =>
    { d with tracker := { t with ctx1 := some c, order := t.order ++ [.c1], nextBinding := t.nextBinding + 1 } }
  | some _, some _ => d

/-! ### Close (section 4.5, section 5.7) -/

/-- The outcome a deadline status becomes when the frame closes (R70). -/
def TileStatus.outcome : TileStatus → TileOutcome
  | .running => .pending
  | .finished => .finished
  | .stalled => .stalled

/-- The rows of a damage list at `lead` or above (R98). -/
def damagedRows (lead : Nat) (list : List RowRange) : Nat :=
  (list.map fun r => r.last + 1 - max r.first lead).sum

/-- The damaged output rows of a slot: the sum over the tiles (R98). -/
def Plan.damagedOutputRows (p : Plan) (x : Slot) : Nat :=
  ((List.range p.tiles.length).map fun t => damagedRows (p.tileAt t).lead (x.damage.getD t [])).sum

/-- The FRAME-CLOSED entry of a slot record (R97). -/
def Plan.closedEntry (p : Plan) (s : Nat) (x : Slot) : Entry :=
  .frameClosed x.frame s x.phase x.base (p.damagedOutputRows x) (x.outcomes.map fun o => o = .stalled) x.rewrites

/-- Close the frame of a context: outcomes copied, slot CLOSED, context freed (R70 steps 1 to 3). -/
def Dev.shutFrame (i : CtxId) (c : Context) (d : Dev) : Dev :=
  (d.updSlot c.slot fun x => { x with state := .closed, outcomes := c.fronts.map (·.status.outcome) }).freeCtx i

/-- Close the frame of a context with its FRAME-CLOSED report; a replay request that waits for the close starts
(R70, R97, R138). -/
def Dev.closeFrame (p : Plan) (i : CtxId) (c : Context) (d : Dev) : Dev :=
  let d := d.shutFrame i c
  Dev.replayClosed c.slot (d.offer (p.closedEntry c.slot (d.ring.slot c.slot)))

/-- The close check: every tile of the context is FINISHED or STALLED (R70). -/
def Dev.closeCheck (p : Plan) (i : CtxId) (d : Dev) : Dev :=
  match d.tracker.ctx i with
  | none => d
  | some c => if c.fronts.all (fun g => g.status ≠ .running) then d.closeFrame p i c else d

/-! ### Stalls (section 4.4) -/

/-- A tile stalls: [R, rows − 1] joins its damage list and its status becomes STALLED (R68). -/
def Dev.stallTile (p : Plan) (i : CtxId) (s : Nat) (t : Nat) (g : Front) (d : Dev) : Dev :=
  (d.addDamage p s t g.row (p.rows (p.tileAt t) - 1)).updFront i t fun g => { g with status := .stalled }

/-- Stall every RUNNING tile from a list of tiles (R71, R72). -/
def Dev.stallAll (p : Plan) (i : CtxId) (c : Context) : List Nat → Dev → Dev
  | [], d => d
  | t :: ts, d =>
    let g := c.fronts.getD t .start
    Dev.stallAll p i c ts (if g.status = .running then d.stallTile p i c.slot t g else d)

/-- Force-close the frame of a context at a capture, with its report (R71). -/
def Dev.forceClose (p : Plan) (i : CtxId) (d : Dev) : Dev :=
  match d.tracker.ctx i with
  | none => d
  | some c =>
    let d := (d.stallAll p i c (List.range c.fronts.length)).count fun k =>
      { k with forcedCloses := satInc k.forcedCloses }
    match d.tracker.ctx i with
    | none => d
    | some c => (d.closeFrame p i c).liveExamine

/-- Force-close the frame of a context at CLEAR, without a report or a count (R72). -/
def Dev.clearClose (p : Plan) (i : CtxId) (d : Dev) : Dev :=
  match d.tracker.ctx i with
  | none => d
  | some c =>
    let d := d.stallAll p i c (List.range c.fronts.length)
    match d.tracker.ctx i with
    | none => d
    | some c => d.shutFrame i c

/-- The row deadline of a plan: 2^k × 256 × count ticks (R65). -/
def Plan.rowDeadline (p : Plan) : Nat := 2 ^ p.rowUnit * 256 * p.rowCount

/-- The deadline of a RUNNING tile (R65). -/
def Plan.deadline (p : Plan) (c : Context) (g : Front) : HeadTime :=
  if g.seen then g.lastAdvance + BitVec.ofNat 32 p.rowDeadline else c.frameStart + BitVec.ofNat 32 p.startAllowance

/-- A tile of a context is RUNNING and head time has reached its deadline (R65, R66, R67). -/
def Dev.tileExpired (d : Dev) (p : Plan) (c : Context) (t : Nat) : Bool :=
  match c.fronts[t]? with
  | none => false
  | some g => g.status = .running && reached d.timing.now (p.deadline c g)

/-- A tile's deadline expires: it stalls, and the close check follows (R65 to R68, R70). -/
def Dev.expireTile (i : CtxId) (t : Nat) (d : Dev) : Dev :=
  match d.plan?, d.tracker.ctx i with
  | some p, some c =>
    if d.tileExpired p c t then
      ((d.stallTile p i c.slot t (c.fronts.getD t .start)).closeCheck p i).liveExamine
    else d
  | _, _ => d

/-! ### Pieces and fronts (section 4.2) -/

/-- The front after a piece that moves it: past the piece, with the row-end check (R56). -/
def Front.moveTo (rows rowLen : Nat) (t : HeadTime) (q : Piece) (g : Front) : Front :=
  if q.stop = rowLen then
    { g with row := q.row + 1, byte := 0, seen := true, lastAdvance := t
             status := if q.row + 1 = rows then .finished else g.status }
  else { g with row := q.row, byte := q.stop, seen := true, lastAdvance := t }

/-- The front moves; a tile that finishes makes the close check; the live reader examines its conditions
(R56, R69, R70, R131, log 16). -/
def Dev.moveFront (p : Plan) (i : CtxId) (t : HeadTime) (q : Piece) (d : Dev) : Dev :=
  let tile := p.tileAt q.tile
  let d := d.updFront i q.tile (Front.moveTo (p.rows tile) (p.rowLen tile) t q)
  let finished : Bool := q.stop = p.rowLen tile && q.row + 1 = p.rows tile
  Dev.liveExamine (if finished then d.closeCheck p i else d)

/-- A piece in the slot of a bound context, judged by its tile's status and front (R55 to R60). -/
def Dev.judgePiece (p : Plan) (i : CtxId) (c : Context) (t : HeadTime) (q : Piece) (d : Dev) : Dev :=
  let g := c.fronts.getD q.tile .start
  if g.status ≠ .running then d.count fun k => { k with lateWrites := satInc k.lateWrites }
  else if q.row = g.row ∧ q.first ≤ g.byte ∧ g.byte < q.stop then d.moveFront p i t q
  else if q.row = g.row ∧ g.byte < q.first then (d.addDamage p q.slot q.tile g.row g.row).moveFront p i t q
  else if g.row < q.row then
    let d := d.addDamage p q.slot q.tile g.row (q.row - 1)
    let d := if q.first = 0 then d else d.addDamage p q.slot q.tile q.row q.row
    d.moveFront p i t q
  else
    (d.updSlot q.slot fun x => { x with rewrites := satInc x.rewrites }).updFront i q.tile fun g => { g with seen := true }

/-- A tracker piece, judged by the state of its slot (R54). -/
def Dev.trackerPiece (p : Plan) (t : HeadTime) (q : Piece) (d : Dev) : Dev :=
  let x := d.ring.slot q.slot
  match x.state with
  | .empty => d.count fun k => { k with strayWrites := satInc k.strayWrites }
  | .closed => d.count fun k =>
      { k with strayWrites := satInc k.strayWrites
               disturbedWrites := if x.live || x.replay then satInc k.disturbedWrites else k.disturbedWrites }
  | .filling =>
    match d.tracker.boundTo q.slot with
    | none => d
    | some i =>
      match d.tracker.ctx i with
      | none => d
      | some c => d.judgePiece p i c t q

/-! ### Tracking handles and error damage (R5, R46, R64) -/

/-- Add a tracker piece to a handle: rows of one tile in one slot are one range (R46). -/
def addHandle (binding : Option Nat) (q : Piece) : List HandleEntry → List HandleEntry
  | [] => [{ slot := q.slot, binding := binding, tile := q.tile, first := q.row, last := q.row }]
  | h :: hs =>
    if h.slot = q.slot ∧ h.tile = q.tile then { h with first := min h.first q.row, last := max h.last q.row } :: hs
    else h :: addHandle binding q hs

/-- The binding in force on a slot, if the slot is FILLING (R5, R64). -/
def Dev.bindingOf (d : Dev) (s : Nat) : Option Nat :=
  if (d.ring.slot s).state = .filling then
    ((d.tracker.boundTo s).bind d.tracker.ctx).map (·.binding)
  else none

/-- The tracking handle of a write's tracker pieces (R5, R46). -/
def Dev.handleOf (d : Dev) (pieces : List Piece) : List HandleEntry :=
  pieces.foldl (fun hs q => addHandle (d.bindingOf q.slot) q hs) []

/-- A handle entry of a write that the memory answered with an error: while its binding is in force its rows join the
damage list (R64). -/
def Dev.errorDamage (h : HandleEntry) (d : Dev) : Dev :=
  match d.plan?, h.binding with
  | some p, some n =>
    if d.tracker.ctx0.any (fun c => c.binding = n && c.slot = h.slot) ||
       d.tracker.ctx1.any (fun c => c.binding = n && c.slot = h.slot) then d.addDamage p h.slot h.tile h.first h.last
    else d
  | _, _ => d

end Sys2Proof.Machine
end

