-- ==== Sys2Proof/Machine/Feed.lean ====
section
/-! DEFINITION. The return feed unit (chapter 11). -/

namespace Sys2Proof.Machine

/-- A return ring is in force (R188). -/
def Feed.inForce (f : Feed) : Bool := f.start < f.stop

/-- The size of the ring in force (R188). -/
def Feed.size (f : Feed) : Nat := f.stop - f.start

/-- (a − b) mod size, for two addresses of the ring. -/
def Feed.ahead (f : Feed) (a b : Nat) : Nat := (a + f.size - b) % f.size

/-- The occupancy (P − C) mod size (R188). -/
def Feed.occupancy (f : Feed) : Nat := f.ahead f.producer f.consumer

/-- The length of the next drain write: the least of the four limits of R189. -/
def Feed.drainLen (f : Feed) : Nat :=
  min (min f.fifo.length 256) (min (f.stop - f.producer) (f.size - 64 - f.occupancy))

/-- Begin a drain write if none is in hand, a ring is in force and its length is at least 1 (R189). -/
def Feed.examine (f : Feed) : Feed :=
  if f.drain = .none && f.inForce && 1 ≤ f.drainLen then { f with drain := .presented f.producer f.drainLen } else f

/-- The unit examines whether it can begin a drain write (R189). -/
def Dev.drainExamine (d : Dev) : Dev := { d with feed := d.feed.examine }

/-- P after a completed write of `n` bytes (R190). -/
def Feed.advanced (f : Feed) (n : Nat) : Nat := if f.producer + n = f.stop then f.start else f.producer + n

/-- The response to the drain write (R190, R193): a completion moves P and hands it to the report writer, unless the ring
changed since the grant; an error sets FAULT. Then the next drain is examined. -/
def Dev.drainResponse (n : Nat) (stale ok : Bool) (d : Dev) : Dev :=
  let d := { d with feed := { d.feed with drain := .none } }
  Dev.drainExamine <|
    if !ok then d
    else if stale then d
    else Dev.handProducer (d.feed.advanced n) { d with feed := { d.feed with producer := d.feed.advanced n } }

/-- A RETURN-CONSUMED value is judged against P and C (R191). -/
def Dev.offerConsumer (v : Nat) (d : Dev) : Dev :=
  let f := d.feed
  if f.start ≤ v && v < f.stop && f.ahead f.producer v ≤ f.occupancy then
    Dev.drainExamine { d with feed := { f with consumer := v } }
  else d.count fun c => { c with refusedConsumers := satInc c.refusedConsumers }

/-- A RETURN-DATA order's bytes are staged, or the whole order is refused and counted (R187). -/
def Dev.stageReturn (bytes : List Byte) (d : Dev) : Dev :=
  if bytes.length ≤ 4096 - d.feed.fifo.length then
    Dev.drainExamine { d with feed := { d.feed with fifo := d.feed.fifo ++ bytes } }
  else
    Dev.count (fun c => { c with returnDrops := satInc c.returnDrops })
      { d with feed := { d.feed with pendingDrop := satInc d.feed.pendingDrop } }

/-- The RETURN-DROP of an occasion: offered when drops are pending, which an admission clears (R192). -/
def Dev.dropReport (d : Dev) : Dev :=
  let e := Entry.returnDrop d.feed.pendingDrop d.timing.now
  if d.feed.pendingDrop = 0 then d
  else if d.admits e then Dev.enqueue e { d with feed := { d.feed with pendingDrop := 0 } }
  else d.dropEntry

/-- What a changed ring does to the drain write in hand: an ungranted one is withdrawn, a granted one goes stale (R193). -/
def Drain.onRingChange : Drain → Drain
  | .none => .none
  | .presented _ _ => .none
  | .granted n _ => .granted n true

/-- Apply at the return feed unit (R193, R189). -/
def Dev.feedApply (p : Plan) (d : Dev) : Dev :=
  if p.retStart = d.feed.start ∧ p.retEnd = d.feed.stop then d.drainExamine
  else
    Dev.drainExamine (Dev.handProducer p.retStart { d with feed :=
      { d.feed with start := p.retStart, stop := p.retEnd, producer := p.retStart, consumer := p.retStart, fifo := [],
                    drain := d.feed.drain.onRingChange } })

end Sys2Proof.Machine
end

