-- ==== Sys2Proof/Machine/RingOps.lean ====
section
/-! DEFINITION. The ring controller (chapter 5): allocation at a capture, frame numbers, the output lines, the gate,
holds, CLEAR. -/

namespace Sys2Proof.Machine

/-! ### Choosing a slot (R82) -/

/-- A CLOSED slot that is not held and has an empty reader set (R82). -/
def Slot.reusable (x : Slot) : Bool := x.state = .closed && !x.held && !x.live && !x.replay

/-- The slot chosen for a capture: the lowest EMPTY one; failing that the oldest reusable one (R82). -/
def Ring.choose (r : Ring) (k : Nat) : Option Nat :=
  match (List.range k).find? fun s => (r.slot s).state = .empty with
  | some s => some s
  | none => r.age.find? fun s => (r.slot s).reusable

/-! ### Frame numbering (R84) -/

/-- A non-EMPTY slot other than `s` carries the number (R84). -/
def Ring.carried (r : Ring) (s : Nat) (f : FrameNo) : Bool :=
  (List.range r.slots.length).any fun i => i ≠ s && (r.slot i).state ≠ .empty && (r.slot i).frame = f

/-- The first number from `f` on that no other non-EMPTY slot carries, wrapping from 16,777,215 to 0 (R84). -/
def Ring.freeNumber (r : Ring) (s : Nat) : Nat → FrameNo → FrameNo
  | 0, f => f
  | fuel + 1, f => if r.carried s f then Ring.freeNumber r s fuel (f + 1) else f

/-- The number of the frame that slot `s` takes (R84). -/
def Ring.frameFor (r : Ring) (s : Nat) : FrameNo := r.freeNumber s (r.slots.length + 1) r.frameCounter

/-! ### Allocation (R85, R86) -/

/-- The record of a slot at its allocation (R85). -/
def Slot.allocated (p : Plan) (f : FrameNo) (phase : Nat) (base : BitVec 32) : Slot :=
  { state := .filling, frame := f, phase := phase, base := base, held := false, live := false, replay := false,
    outcomes := List.replicate p.tiles.length .pending, damage := List.replicate p.tiles.length [], rewrites := 0 }

/-- The ring at the allocation of slot `s`: record, age order, frame counter, last started frame, and the frame start
on the output lines (R84, R85, R86). -/
def Ring.allocate (r : Ring) (p : Plan) (s phase : Nat) (base : BitVec 32) (now : HeadTime) : Ring :=
  let f := r.frameFor s
  { r with
    slots := r.slots.set s (Slot.allocated p f phase base)
    age := r.age.filter (· ≠ s) ++ [s]
    frameCounter := f + 1
    lastStarted := some f
    frameStartHigh := true
    frameStartEnd := some (now + 148)
    slotLines := BitVec.ofNat 5 s
    phaseLines := BitVec.ofNat 3 phase }

/-- The gate counts an issued frame start (R93). -/
def Gate.counted : Gate → Gate
  | .running => .running
  | .countdown n => if n = 1 then .paused else .countdown (n - 1)
  | .stepping => .paused
  | .paused => .paused

/-- Both contexts are bound: the one bound earlier (R71, R81). -/
def Tracker.toForce (t : Tracker) : Option CtxId :=
  match t.ctx0, t.ctx1 with
  | some _, some _ => t.order.head?
  | _, _ => none

/-- Allocation of the chosen slot: the record, the binding, the offer to the live reader at phase 0, the frame start,
and the gate's count (R81 steps 4 and 5, R85, R86, R93). -/
def Dev.allocate (p : Plan) (s : Nat) (at_ : HeadTime) (phase : Nat) (base : BitVec 32) (d : Dev) : Dev :=
  let d := { d with ring := d.ring.allocate p s phase base d.timing.now }
  let d := d.bindCtx p s at_
  let d := if phase = 0 then d.liveOffer p s else d
  { d with ring := { d.ring with gate := d.ring.gate.counted } }

/-- A capture at the ring controller (R81 to R86). -/
def Dev.takeCapture (p : Plan) (at_ : HeadTime) (phase : Nat) (base : BitVec 32) (d : Dev) : Dev :=
  if d.ring.gate = .paused then d
  else
    let d := match d.tracker.toForce with
      | none => d
      | some i => d.forceClose p i
    match d.ring.choose p.slots with
    | none => d.count fun c => { c with skippedCaptures := satInc c.skippedCaptures }
    | some s => d.allocate p s at_ phase base

/-! ### Holds (R94, R95) -/

/-- A HOLD order: its status, and the ring after it (R94). -/
def Dev.holdFrame (f : FrameNo) (d : Dev) : Dev × Status :=
  match d.ring.lookup f with
  | none => (d, .gone)
  | some s =>
    if (d.ring.slot s).held then (d, .done)
    else if d.ring.holdCount < (d.plan?.map (·.slots)).getD 0 - 3 then
      let d := d.updSlot s fun x => { x with held := true }
      ({ d with ring := { d.ring with holdCount := d.ring.holdCount + 1 } }, .done)
    else (d, .full)

/-- A RELEASE order of a frame number (R95). -/
def Dev.releaseFrame (f : FrameNo) (d : Dev) : Dev × Status :=
  match d.ring.lookup f with
  | none => (d, .gone)
  | some s =>
    if (d.ring.slot s).held then
      let d := d.updSlot s fun x => { x with held := false }
      ({ d with ring := { d.ring with holdCount := d.ring.holdCount - 1 } }, .done)
    else (d, .done)

/-- RELEASE ALL (R95). -/
def Dev.releaseEvery (d : Dev) : Dev :=
  { d with ring := { d.ring with slots := d.ring.slots.map (fun (x : Slot) => { x with held := false }), holdCount := 0 } }

/-! ### CLEAR (R96) -/

/-- CLEAR's first step: replay cancelled, live frames dropped, every mark removed, and the REPLAY-END entries owed are
offered (R96, R135, R143, log 33). -/
def Dev.clearReaders (d : Dev) : Dev :=
  let d := d.cancelRequest.cancelQueued
  let d := { d with
    replay := { d.replay with fetcher := d.replay.fetcher.dropAll }
    live := d.live.dropFrames
    ring := { d.ring with slots := d.ring.slots.map (fun (x : Slot) => { x with live := false, replay := false }) } }
  d.forgetMark.replaySettle

/-- CLEAR's second step: every FILLING slot is force-closed without a report (R72, R96). -/
def Dev.clearFilling (d : Dev) : Dev :=
  match d.plan? with
  | none => d
  | some p => (d.clearClose p .c0).clearClose p .c1

/-- CLEAR's third step: every slot that is not held becomes EMPTY and leaves the age order (R96, R78). -/
def Dev.clearSlots (d : Dev) : Dev :=
  { d with ring := { d.ring with
      age := d.ring.age.filter fun s => (d.ring.slot s).held
      slots := d.ring.slots.map fun (x : Slot) => if x.held then x else Slot.vacant } }

/-- The three steps of CLEAR (R96). -/
def Dev.clearRing (d : Dev) : Dev := d.clearReaders.clearFilling.clearSlots

end Sys2Proof.Machine
end

