-- ==== Sys2Proof/Machine/PlanOps.lean ====
section
/-! DEFINITION. The plan unit (chapter 2): apply, commit, the live words, and the pieces of the plan region. -/

namespace Sys2Proof.Machine

/-- Apply at the ring controller: every slot EMPTY, holds cleared, age order empty (R99). -/
def Ring.cleared (r : Ring) : Ring :=
  { r with slots := r.slots.map (fun _ => Slot.vacant), age := [], holdCount := 0 }

/-- Apply makes the pending plan the working plan, and every block takes up the new plan (R27): contexts freed (R73),
slots EMPTY (R99), live frames and replay requests dropped (R135, R143), the return ring compared (R193). -/
def Dev.apply (w : PendingPlan) (d : Dev) : Dev :=
  let d := d.cancelRequest.cancelQueued
  let d := { d with
    plan := { d.plan with working := some { plan := w.plan, seq := w.seq }, pending := none }
    tracker := { d.tracker with ctx0 := none, ctx1 := none, order := [] }
    replay := { d.replay with fetcher := d.replay.fetcher.dropAll }
    live := d.live.dropFrames
    ring := d.ring.cleared }
  (d.forgetMark.feedApply w.plan).replaySettle

/-- An apply from UNPLANNED, made at the commit: the first anchor is the commit's head time + T (R25, R115). -/
def Dev.applyFirst (w : PendingPlan) (d : Dev) : Dev :=
  Dev.apply w { d with timing :=
    { d.timing with nextAnchor := some (w.at_ + BitVec.ofNat 32 w.plan.period), inGroup := [] } }

/-- An accepted commit (R25). -/
def Dev.acceptCommit (p : Plan) (seq : BitVec 16) (d : Dev) : Dev :=
  let w : PendingPlan := { plan := p.clamp, seq := seq, at_ := d.timing.now }
  let d := { d with plan := { d.plan with last := .accepted seq p.clampSet } }
  match d.plan.working with
  | none => d.applyFirst w
  | some _ => { d with plan := { d.plan with pending := some w } }

/-- A rejected commit (R24). -/
def Dev.rejectCommit (reason : Group) (seq : BitVec 16) (d : Dev) : Dev :=
  Dev.setCause .commit (Dev.count (fun c => { c with rejectedCommits := satInc c.rejectedCommits })
    { d with plan := { d.plan with last := .rejected seq reason } })

/-- A commit: the shadow is snapshotted, validated, and rejected or accepted (R19 to R25). -/
def Dev.takeCommit (d : Dev) : Dev :=
  let g := d.plan.shadow.staged
  let seq := d.plan.shadow.commitSeq
  match g.failure d.mem.planAddr (MemSize.bytes d.mem.memSize) with
  | some reason => d.rejectCommit reason seq
  | none => d.acceptCommit g.toPlan seq

/-- An ATTENTION-ACK value is taken (R30). -/
def Dev.acknowledge (v : Nat) (d : Dev) : Dev :=
  { d with report := { d.report with causes := d.report.causes.acknowledge v } }

/-- The piece's bytes that fall in the staging area join the shadow (R18). -/
def Dev.shadowBytes (off : Nat) (bytes : List Byte) (d : Dev) : Dev :=
  { d with plan := { d.plan with shadow := Memory.writeIn 0 0x1000 d.plan.shadow off bytes } }

/-- The piece's bytes that fall in the two live words join the live-word copy (R29). -/
def Dev.liveBytes (off : Nat) (bytes : List Byte) (d : Dev) : Dev :=
  { d with plan := { d.plan with
      live := Memory.writeIn 0x1008 0x1010 (Memory.writeIn 0x1000 0x1004 d.plan.live off bytes) off bytes } }

/-- A piece of `n` bytes at an offset covers a point of the plan region (R6). -/
def covers (off n point : Nat) : Bool := off ≤ point && point < off + n

/-- A plan-region piece at the plan unit: shadow, then commit, then ATTENTION-ACK, then RETURN-CONSUMED, as the piece
covers their first bytes (R6, R18, R19, R29, R30, R31). -/
def Dev.planPiece (off : Nat) (bytes : List Byte) (d : Dev) : Dev :=
  let d := d.shadowBytes off bytes
  let d := if covers off bytes.length 0x0FFC then d.takeCommit else d
  let d := d.liveBytes off bytes
  let d := if covers off bytes.length 0x1000 then d.acknowledge (d.plan.live.readNat 0x1000 4) else d
  if covers off bytes.length 0x1008 then d.offerConsumer (d.plan.live.readNat 0x1008 8) else d

end Sys2Proof.Machine
end

