-- ==== Sys2Proof/Machine/Genlock.lean ====
section
/-! DEFINITION. The timing generator (chapter 6): echoes and the delay filter, references, anchors, captures, genlock. -/

namespace Sys2Proof.Machine

/-- 2,097,152 ticks, the interval of the echo, report and head-status timers (R33, R102, R118). -/
def timerInterval : HeadTime := 2097152

/-- Change the timing generator's state. -/
def Dev.updTiming (f : Timing → Timing) (d : Dev) : Dev := { d with timing := f d.timing }

/-! ### Echoes and the delay filter (section 6.2) -/

/-- An outstanding echo is abandoned, and counted (R102). -/
def Dev.abandonEcho (d : Dev) : Dev :=
  if d.timing.echoOut then
    Dev.count (fun c => { c with abandonedEchoes := satInc c.abandonedEchoes })
      (d.updTiming fun t => { t with echoOut := false })
  else d

/-- The five parts of an expiry of the echo timer (R102). -/
def Dev.sendEcho (d : Dev) : Dev :=
  let d := d.abandonEcho.updTiming fun t => { t with echoSeq := t.echoSeq + 1, echoDue := t.echoDue + timerInterval }
  let e := Entry.echo d.timing.echoSeq 0
  let admitted := d.admits e
  (d.offer e).updTiming fun t => { t with echoOut := admitted }

/-- The delay sample of a taken return (R105). -/
def delaySample (arrival stamp : HeadTime) (turnaround : BitVec 32) : Nat :=
  min 65535 ((arrival - stamp).toNat - turnaround.toNat) / 2

/-- D after a sample within 256 ticks of it: D + (d / 8), truncated toward zero (R106), clamped to 0 … 32,767 (R107). -/
def filtered (delay sample : Nat) : Nat :=
  (max 0 (min 32767 ((delay : Int) + Int.tdiv ((sample : Int) - (delay : Int)) 8))).toNat

/-- A sample lies more than 256 ticks from D (R107). -/
def isOutlier (delay sample : Nat) : Bool := delay + 256 < sample || sample + 256 < delay

/-- The delay filter takes a sample (R106, R107). -/
def Timing.filter (t : Timing) (sample : Nat) : Timing :=
  if !t.delayValid then { t with delay := sample, delayValid := true }
  else if isOutlier t.delay sample then
    if 4 ≤ t.outlierRun + 1 then { t with delay := sample, outlierRun := 0 }
    else { t with outlierRun := t.outlierRun + 1 }
  else { t with delay := filtered t.delay sample, outlierRun := 0 }

/-- An ECHO-RETURN that matches the outstanding echo is taken; another is ignored (R104 to R107). -/
def Dev.takeEcho (seq : BitVec 16) (stamp : HeadTime) (turnaround : BitVec 32) (arrival : HeadTime) (d : Dev) : Dev :=
  if d.timing.echoOut && d.timing.echoSeq = seq then
    let sample := delaySample arrival stamp turnaround
    let outlier := d.timing.delayValid && isOutlier d.timing.delay sample
    let d := d.updTiming fun t => { t.filter sample with echoOut := false }
    if outlier then d.count fun c => { c with echoOutliers := satInc c.echoOutliers } else d
  else d

/-! ### References (sections 6.3, 6.5) -/

/-- How often R109 adds T to the anchor `a` until it is later than `now`: the least such number (log 24). -/
def additions (now a : HeadTime) (period : Nat) : Nat := if later a now then 0 else (now - a).toNat / period + 1

/-- The reference-loss limit (R117). -/
def lossLimit : Option Plan → Nat
  | none => 16777216
  | some p => 8 * p.period

/-- The genlock state and lock run after a reference that computed an anchor (R116). -/
def Genlock.next (g : Genlock) (run : Nat) (inWindow : Bool) : Genlock × Nat :=
  match g, inWindow with
  | .free, true => (.locking, 1)
  | .free, false => (.locking, 0)
  | .locking, true => if 3 ≤ run + 1 then (.locked, 3) else (.locking, run + 1)
  | .locking, false => (.locking, 0)
  | .locked, true => (.locked, 3)
  | .locked, false => (.locking, 0)

/-- The first anchor of R109: t_r + T − D − L. -/
def Plan.firstAnchor (p : Plan) (tr : HeadTime) (delay : Nat) : HeadTime :=
  tr + BitVec.ofNat 32 p.period - BitVec.ofNat 32 delay - BitVec.ofNat 32 p.advance

/-- The timing generator re-anchors: phase error, next anchor, in-group captures before it, base count, genlock move
(R109, R110, R116). -/
def Timing.reanchor (t : Timing) (p : Plan) (tr : HeadTime) (predicted : HeadTime) : Timing :=
  let a0 := p.firstAnchor tr t.delay
  let k := additions t.now a0 p.period
  let a := a0 + BitVec.ofNat 32 (k * p.period)
  let e := a - predicted
  let g := t.genlock.next t.lockRun (e.toInt.natAbs ≤ p.lockWindow)
  { t with
    nextBase := t.nextBase + BitVec.ofNat 32 k
    phaseError := e
    nextAnchor := some a
    inGroup := t.inGroup.filter fun c => !reached c.at_ a
    genlock := g.1
    lockRun := g.2 }

/-- A reference that computes an anchor: the re-anchoring, the phase-steps counter, and GENLOCK when LOCKED is left
(R110, R116). -/
def Dev.anchorFrom (p : Plan) (tr predicted : HeadTime) (d : Dev) : Dev :=
  let wasLocked := d.timing.genlock = .locked
  let d := d.updTiming fun t => t.reanchor p tr predicted
  let d := if p.lockWindow < d.timing.phaseError.toInt.natAbs then
      d.count fun c => { c with phaseSteps := satInc c.phaseSteps } else d
  if wasLocked && d.timing.genlock ≠ .locked then d.setCause .genlock else d

/-- A REFERENCE is taken: loss deadline and base count always; then by plan state and D (R108). -/
def Dev.takeReference (count : BitVec 32) (tr : HeadTime) (d : Dev) : Dev :=
  let d := d.updTiming fun t =>
    { t with lossDeadline := some (t.now + BitVec.ofNat 32 (lossLimit d.plan?)), nextBase := count + 1 }
  if !d.timing.delayValid then d
  else match d.plan?, d.timing.nextAnchor with
    | none, _ => if d.timing.genlock = .free then d.updTiming fun t => { t with genlock := .locking, lockRun := 0 } else d
    | some _, none => d
    | some p, some predicted => d.anchorFrom p tr predicted

/-- The reference-loss deadline has passed: FREE, with GENLOCK when LOCKED is left (R117, log 35). -/
def Dev.loseReference (d : Dev) : Dev :=
  let wasLocked := d.timing.genlock = .locked
  let d := d.updTiming fun t => { t with lossDeadline := none, genlock := .free, lockRun := 0 }
  if wasLocked then d.setCause .genlock else d

/-! ### Anchors and captures (section 6.4) -/

/-- The HEAD-STATUS entry of an occasion, from the state at the offer (R118). -/
def Dev.headStatus (o : Occasion) (time : HeadTime) (base : BitVec 32) (d : Dev) : Entry :=
  .headStatus o d.timing.genlock d.timing.lockRun ((d.plan?.map (·.speed)).getD 0) time base d.timing.delay
    d.timing.delayValid d.timing.phaseError

/-- The offset of in-group capture `j` from its anchor (R113). -/
def Plan.captureOffset (p : Plan) (j : Nat) : Nat := j * (p.period / p.speed) + min j (p.period % p.speed)

/-- The in-group captures of the group at anchor `a` (R113). -/
def Plan.group (p : Plan) (a : HeadTime) (base : BitVec 32) : List InGroup :=
  (List.range (p.speed - 1)).map fun i =>
    { at_ := a + BitVec.ofNat 32 (p.captureOffset (i + 1)), phase := i + 1, base := base }

/-- The plan unit's examination of the pending plan at anchor `a` (R26). -/
def Dev.examinePending (a : HeadTime) (d : Dev) : Dev :=
  match d.plan.pending with
  | none => d
  | some w => if 65536 ≤ (a - w.at_).toNat then d.apply w else d

/-- The group at anchor `a`: base count, in-group captures, next anchor (R113). -/
def Timing.buildGroup (t : Timing) (p : Plan) (a : HeadTime) : Timing :=
  { t with
    nextBase := t.nextBase + 1
    inGroup := p.group a t.nextBase
    nextAnchor := some (a + BitVec.ofNat 32 p.period) }

/-- The anchor event at anchor `a` (R26, R113, R118, R192, R33). -/
def Dev.takeAnchor (a : HeadTime) (d : Dev) : Dev :=
  let d := d.examinePending a
  match d.plan? with
  | none => d
  | some p =>
    let base := d.timing.nextBase
    let d := d.updTiming fun t => t.buildGroup p a
    let d := d.takeCapture p a 0 base
    Dev.recordDue (d.offer (d.headStatus .anchor a base)).dropReport

/-- The timed HEAD-STATUS of the UNPLANNED state, and any RETURN-DROP (R118, R192). -/
def Dev.timedStatus (d : Dev) : Dev :=
  let d := d.updTiming fun t => { t with statusDue := t.statusDue + timerInterval }
  Dev.dropReport (d.offer (d.headStatus .timer d.timing.now d.timing.nextBase))

/-- The report timer of the UNPLANNED state expires (R33). -/
def Dev.timedReport (d : Dev) : Dev :=
  Dev.recordDue { d with report := { d.report with timerDue := d.report.timerDue + timerInterval } }

/-- The first in-group capture is due: it leaves the schedule and goes to the ring controller (R114). -/
def Dev.takeInGroup (c : InGroup) (rest : List InGroup) (d : Dev) : Dev :=
  let d := d.updTiming fun t => { t with inGroup := rest }
  match d.plan? with
  | none => d
  | some p => d.takeCapture p c.at_ c.phase c.base

/-! ### Which timed events are due (R101) -/

/-- The plan state is UNPLANNED. -/
def Dev.unplanned (d : Dev) : Bool := d.plan.state = .unplanned

/-- The echo timer is due (R102). -/
def Dev.echoIsDue (d : Dev) : Bool := reached d.timing.now d.timing.echoDue

/-- The report timer is due: only while UNPLANNED (R33). -/
def Dev.reportIsDue (d : Dev) : Bool := d.unplanned && reached d.timing.now d.report.timerDue

/-- A timed HEAD-STATUS is due: only while UNPLANNED (R118). -/
def Dev.statusIsDue (d : Dev) : Bool := d.unplanned && reached d.timing.now d.timing.statusDue

/-- Head time has reached a time that may be set. -/
def dueAt (now : HeadTime) : Option HeadTime → Bool
  | none => false
  | some t => reached now t

end Sys2Proof.Machine
end

