-- ==== Sys2Proof/Machine/Watches.lean ====
section
/-! DEFINITION. The watch unit (section 10.4, section 10.5): hits, reports, and the seeding record. -/

namespace Sys2Proof.Machine

/-- Put the bytes written at `a`, `a + 1`, … over a value whose first byte lies at an address (R182, R184). -/
def overlay {α : Type} (a : Nat) (bytes : List α) : Nat → List α → List α
  | _, [] => []
  | k, x :: xs =>
    (if a ≤ k ∧ k < a + bytes.length then bytes.getD (k - a) x else x) :: overlay a bytes (k + 1) xs

/-- The ranges [a, a + n) and [w, w + len) share a byte. -/
def overlapping (a n w len : Nat) : Bool := a < w + len && w < a + n && 0 < n && 0 < len

/-- Whether a hit offers a report (R184). -/
def WatchEntry.wants (e : WatchEntry) : Bool :=
  match e.mode with
  | .every => true
  | .change => e.known ≠ e.reported
  | .once => true

/-- Change one entry of the watch table. -/
def Dev.setEntry (id : Nat) (x : Option WatchEntry) (d : Dev) : Dev :=
  { d with watch := { d.watch with table := d.watch.table.set id x } }

/-- The entry under an id, if it is ARMED. -/
def Watch.entry (w : Watch) (id : Nat) : Option WatchEntry := (w.table[id]?).join

/-- The entry as it stands after an offer (R184, R185). -/
def WatchEntry.afterOffer (e : WatchEntry) (taken : Bool) : Option WatchEntry :=
  match e.mode with
  | .once => none
  | .every | .change => some (if taken then { e with reported := e.known } else e)

/-- A hit on an entry whose known value has been updated: the offer by its mode (R184, R185). -/
def Dev.judgeHit (id : Nat) (e : WatchEntry) (time : HeadTime) (d : Dev) : Dev :=
  if e.wants then
    let r := d.offerWatch id e.known time
    r.1.setEntry id (e.afterOffer r.2)
  else d.setEntry id (some e)

/-- A hit of a write of `bytes` at `a` on the entry under an id (R184). -/
def Dev.watchHit (id a : Nat) (bytes : List Byte) (d : Dev) : Dev :=
  match d.watch.entry id with
  | none => d
  | some e => d.judgeHit id { e with known := overlay a bytes e.addr e.known } d.timing.now

/-- A hit on the seeding record (R182). -/
def Dev.seedHit (a : Nat) (bytes : List Byte) (d : Dev) : Dev :=
  match d.watch.seeding with
  | none => d
  | some s =>
    { d with watch := { d.watch with seeding := some { s with
        known := overlay a (bytes.map some) s.addr s.known, hits := s.hits + 1, hitTime := some d.timing.now } } }

/-- The seeding record at the grant of the seed read (R182). -/
def Seeding.fresh (id addr len : Nat) (mode : WatchMode) : Seeding :=
  { id := id, addr := addr, len := len, mode := mode, known := List.replicate len none, hits := 0, hitTime := none }

/-- The entry a seeding record becomes with the seed bytes (R183). -/
def Seeding.entry (s : Seeding) (data : List Byte) : WatchEntry :=
  { addr := s.addr, len := s.len, mode := s.mode, known := List.zipWith (fun k b => k.getD b) s.known data,
    reported := data }

/-- The seed bytes arrive: the record becomes the entry for its id, and hits during the seeding count as one (R183). -/
def Dev.installSeed (data : List Byte) (d : Dev) : Dev :=
  match d.watch.seeding with
  | none => d
  | some s =>
    let d := { d with watch := { table := d.watch.table.set s.id (some (s.entry data)), seeding := none } }
    if s.hits = 0 then d else d.judgeHit s.id (s.entry data) (s.hitTime.getD d.timing.now)

/-- The seed read fails: the record goes with its hits (R183). -/
def Dev.discardSeed (d : Dev) : Dev := { d with watch := { d.watch with seeding := none } }

end Sys2Proof.Machine
end

