-- ==== Sys2Proof/Machine/Classify.lean ====
section
/-! DEFINITION. The write classifier (section 1.2). -/

namespace Sys2Proof.Machine

/-- The plan region as an address range (R5). -/
def MemPath.planRegion (m : MemPath) : Nat × Nat := (m.planAddr, m.planAddr + 65536)

/-- The parts of the plan region: staging area, live words, report area (R6). A write is cut at their ends too, as section
1.5's first worked sequence shows (log 14). -/
def MemPath.planParts (m : MemPath) : List (Nat × Nat) :=
  [(m.planAddr, m.planAddr + 0x1000), (m.planAddr + 0x1000, m.planAddr + 0x1100),
   (m.planAddr + 0x2000, m.planAddr + 0x2400)]

/-- The ranges of the armed entries and of the seeding record (R5). -/
def Watch.windows (w : Watch) : List (Nat × Nat) :=
  (w.table.filterMap fun x => x.map fun e => (e.addr, e.addr + e.len)) ++
    (w.seeding.map fun s => (s.addr, s.addr + s.len)).toList

/-- Every region of R5, as the state holds it, with the parts of the plan region. -/
def Dev.regions (d : Dev) : List (Nat × Nat) :=
  [d.mem.planRegion] ++ d.mem.planParts ++ (d.plan?.map fun p => (p.ringBase, p.ringBase + p.slots * p.stride)).toList ++
    d.watch.windows

/-- An address is a boundary of a region. -/
def isBoundary (regions : List (Nat × Nat)) (a : Nat) : Bool := regions.any fun r => r.1 = a || r.2 = a

/-- Cut the bytes of a write at every boundary: each piece with its address, in ascending address order (R5, log 14). -/
def cutBytes (cut : Nat → Bool) : Nat → List Byte → List (Nat × List Byte)
  | _, [] => []
  | a, b :: bs =>
    match cutBytes cut (a + 1) bs with
    | [] => [(a, [b])]
    | (k, p) :: rest => if cut (a + 1) then (a, [b]) :: (k, p) :: rest else (a, b :: p) :: rest

/-- The pieces of a write (R5). -/
def Dev.pieces (d : Dev) (a : Nat) (bytes : List Byte) : List (Nat × List Byte) :=
  cutBytes (isBoundary d.regions) a bytes

/-- The piece at `k` goes to the plan unit if it lies in the plan region (R5, R6). -/
def Dev.toPlanUnit (k : Nat) (piece : List Byte) (d : Dev) : Dev :=
  if d.mem.planAddr ≤ k ∧ k < d.mem.planAddr + 65536 then d.planPiece (k - d.mem.planAddr) piece else d

/-- The piece's tracker pieces go to the progress tracker (R5, R45, R54). -/
def Dev.toTracker (plan : Option Plan) (k : Nat) (piece : List Byte) (d : Dev) : Dev :=
  match plan with
  | none => d
  | some p => (p.trackerPieces k piece.length).foldl (fun d q => d.trackerPiece p d.timing.now q) d

/-- The ids of the entries of a table whose overlap with the write [a, a + n) begins in the piece [k, k + len), in
ascending order (R184, log 14). -/
def Watch.hitIds (w : Watch) (a n k len : Nat) : List Nat :=
  (List.range w.table.length).filter fun id =>
    match w.entry id with
    | none => false
    | some e => overlapping a n e.addr e.len && k ≤ max a e.addr && max a e.addr < k + len

/-- The seeding record's overlap with the write begins in the piece. -/
def Watch.seedHit (w : Watch) (a n k len : Nat) : Bool :=
  match w.seeding with
  | none => false
  | some s => overlapping a n s.addr s.len && k ≤ max a s.addr && max a s.addr < k + len

/-- The watch unit's part of a piece: one hit for each entry, and the seeding record, whose overlap begins here. -/
def Dev.toWatches (w : Watch) (a : Nat) (bytes : List Byte) (k : Nat) (piece : List Byte) (d : Dev) : Dev :=
  let d := (w.hitIds a bytes.length k piece.length).foldl (fun d id => d.watchHit id a bytes) d
  if w.seedHit a bytes.length k piece.length then d.seedHit a bytes else d

/-- One piece of the write `bytes` at `a`: to the plan unit, the progress tracker, the watch unit (R5). `plan` and `w` are
the working plan and the watch unit as they stood at the grant (R4, log 15). -/
def Dev.takePiece (plan : Option Plan) (w : Watch) (a : Nat) (bytes : List Byte) (piece : Nat × List Byte) (d : Dev) :
    Dev :=
  ((d.toPlanUnit piece.1 piece.2).toTracker plan piece.1 piece.2).toWatches w a bytes piece.1 piece.2

/-- Classification of a write at its grant (R4 to R8). -/
def Dev.classify (a : Nat) (bytes : List Byte) (d : Dev) : Dev :=
  (d.pieces a bytes).foldl (fun e q => e.takePiece d.plan? d.watch a bytes q) d

/-- The tracking handle of a write (R5). -/
def Dev.writeHandle (d : Dev) (a n : Nat) : List HandleEntry :=
  match d.plan? with
  | none => []
  | some p => d.handleOf (p.trackerPieces a n)

end Sys2Proof.Machine
end

