-- ==== Sys2Proof/Machine/Arbiter.lean ====
section
/-! DEFINITION. The memory side port and its arbiter (section 1.3): who is granted, and what each grant does. -/

namespace Sys2Proof.Machine

/-- A party that may be granted the memory side port. -/
inductive Party where
  | passing | live | remote | report | feed | replay
  deriving DecidableEq, Repr

/-- A drain write waits for its grant (R189). -/
def Drain.waits : Drain → Bool
  | .presented _ _ => true
  | .none => false
  | .granted _ _ => false

/-- The rank-3 requester to take: the one not granted last when both wait (R10). -/
def Dev.rank3 (d : Dev) : Option Party :=
  match d.report.presented.isSome, d.feed.drain.waits with
  | true, true => some (match d.mem.lastRank3 with | .report => .feed | .feed => .report)
  | true, false => some .report
  | false, true => some .feed
  | false, false => none

/-- The highest-ranked waiting inserted requester (R10). -/
def Dev.inserted (d : Dev) : Option Party :=
  if d.live.fetcher.req.isSome then some .live
  else if d.remote.req.isSome then some .remote
  else match d.rank3 with
    | some x => some x
    | none => if d.replay.fetcher.req.isSome then some .replay else none

/-- The remote access unit presents the write of the MASK-WRITE that holds the port (R12). -/
def Dev.maskWriteWaits (d : Dev) : Bool :=
  match d.remote.req with
  | none => false
  | some r => r.use = .maskWrite

/-- The choice of R11, with the steal counter afterwards; none where no request may be granted. -/
def Dev.choose (d : Dev) : Option (Party × Nat) :=
  if d.mem.portHeld then (if d.maskWriteWaits then some (.remote, 0) else none)
  else match d.mem.transit, d.inserted with
    | none, none => none
    | some _, none => some (.passing, 0)
    | none, some x => some (x, 0)
    | some _, some x => if d.mem.steal < 16 then some (.passing, d.mem.steal + 1) else some (x, 0)

/-- A grant decision can be made: RESET and parked not asserted, fewer than 64 requests in flight (R3, R11, R13, R17). -/
def Dev.mayGrant (d : Dev) : Bool := !d.resetAsserted && !d.mem.parked && d.mem.inflight.length < 64

/-- The port presents a request to the memory with a new tag and adds its in-flight record (R3). -/
def MemPath.issue (m : MemPath) (owner : Owner) (op : BusOp) (handle : List HandleEntry) : MemPath :=
  { m with
    inflight := m.inflight ++ [{
      tag := m.nextTag, owner := owner
      isWrite := match op with | .read _ _ => false | .write _ _ => true
      len := match op with | .read _ n => n | .write _ bs => bs.length
      handle := handle }]
    nextTag := m.nextTag + 1
    memOut := some { tag := m.nextTag, op := op } }

/-- Issue a request for an owner. -/
def Dev.issue (owner : Owner) (op : BusOp) (handle : List HandleEntry) (d : Dev) : Dev :=
  { d with mem := d.mem.issue owner op handle }

/-- Issue a classified write and classify it (R4, R5). -/
def Dev.issueWrite (owner : Owner) (a : Addr) (bytes : List Byte) (d : Dev) : Dev :=
  (d.issue owner (.write a bytes) (d.writeHandle a.toNat bytes.length)).classify a.toNat bytes

/-- Grant of the request in transit (R1, R2, R4). -/
def Dev.grantPassing (d : Dev) : Dev :=
  match d.mem.transit with
  | none => d
  | some q =>
    let d := { d with mem := { d.mem with transit := none } }
    match q.op with
    | .read a n => d.issue (.passing q.ident) (.read a n) []
    | .write a bytes => d.issueWrite (.passing q.ident) a bytes

/-- Grant of a reader's request; the reader presents its next one (R10, R122). -/
def Dev.grantFetch (r : ReaderId) (d : Dev) : Dev :=
  match (d.fetcher r).req with
  | none => d
  | some (i, q) =>
    let d := d.updFetcher r fun f =>
      Fetcher.presentNext
        { f.setBuf i { f.buf i with outstanding := (f.buf i).outstanding + 1 } with req := none } i
    d.issue (.fetch r i q) (.read (BitVec.ofNat 34 q.addr) q.len) []

/-- The seeding record is created at the grant of the seed read (R182). -/
def Dev.startSeeding (d : Dev) : Dev :=
  match d.uplink.executor with
  | .executing _ _ (.watchSet id addr len mode) =>
    { d with watch := { d.watch with seeding := some (Seeding.fresh id addr len mode) } }
  | .executing _ _ (.read _) | .executing _ _ (.readNext _) | .executing _ _ (.write _)
  | .executing _ _ (.writeNext _) | .executing _ _ (.maskWrite _ _ _ _) | .idle | .responding _ => d

/-- Set or clear the port-held flag (R12). -/
def Dev.holdPort (b : Bool) (d : Dev) : Dev := { d with mem := { d.mem with portHeld := b } }

/-- Grant of the remote access unit's request (R12, R176, R177, R179, R182). -/
def Dev.grantRemote (d : Dev) : Dev :=
  match d.remote.req with
  | none => d
  | some r =>
    let d := { d with remote := { d.remote with req := none } }
    let d := match r.op with
      | .read a n => d.issue (.remote r.use) (.read a n) []
      | .write a bytes => d.issueWrite (.remote r.use) a bytes
    match r.use with
    | .read => d
    | .write => d
    | .maskRead => d.holdPort true
    | .maskWrite => d.holdPort false
    | .seed => d.startSeeding

/-- The write the report writer presents: address and bytes (R34, R35). -/
def Dev.reportWrite (d : Dev) : ReportWrite → Nat × List Byte
  | .producerWord => (d.mem.planAddr + 0x2200, leBytes 8 (d.report.producer.getD 0))
  | .firstHalf => (d.mem.planAddr + 0x2000, (d.report.writing.map (·.half false)).getD [])
  | .secondHalf => (d.mem.planAddr + 0x2100, (d.report.writing.map (·.half true)).getD [])

/-- What the report writer does after a grant: after the second half a due record is started, else the next write is
presented (R34, R35). -/
def Dev.afterReportGrant (w : ReportWrite) (d : Dev) : Dev :=
  match w with
  | .producerWord => { d with report := d.report.present }
  | .firstHalf => { d with report := d.report.present }
  | .secondHalf =>
    let d := { d with report := { d.report with writing := none } }
    if d.report.recordDue then Dev.startRecord { d with report := { d.report with recordDue := false } }
    else { d with report := d.report.present }

/-- Grant of the report writer's request. -/
def Dev.grantReport (d : Dev) : Dev :=
  match d.report.presented with
  | none => d
  | some w =>
    let q := d.reportWrite w
    let d := d.issue .report (.write (BitVec.ofNat 34 q.1) q.2) []
    Dev.afterReportGrant w
      { d with report := { d.report with presented := none }, mem := { d.mem with lastRank3 := .report } }

/-- Grant of the drain write: its bytes leave the FIFO (R189). -/
def Dev.grantFeed (d : Dev) : Dev :=
  match d.feed.drain with
  | .none => d
  | .granted _ _ => d
  | .presented a n =>
    let d := d.issue .feed (.write (BitVec.ofNat 34 a) (d.feed.fifo.take n)) []
    { d with feed := { d.feed with fifo := d.feed.fifo.drop n, drain := .granted n false }
             mem := { d.mem with lastRank3 := .feed } }

/-- Grant to a party. -/
def Dev.grantTo (x : Party) (d : Dev) : Dev :=
  match x with
  | .passing => d.grantPassing
  | .live => d.grantFetch .live
  | .remote => d.grantRemote
  | .report => d.grantReport
  | .feed => d.grantFeed
  | .replay => d.grantFetch .replay

/-- Set the steal counter. -/
def Dev.setSteal (n : Nat) (d : Dev) : Dev := { d with mem := { d.mem with steal := n } }

/-- A grant decision (R11). -/
def Dev.grant (d : Dev) : Dev :=
  if d.mayGrant then
    match d.choose with
    | none => d
    | some (x, n) => (d.setSteal n).grantTo x
  else d

end Sys2Proof.Machine
end

