-- ==== Sys2Proof/Machine/Executor.lean ====
section
/-! DEFINITION. The order executor (sections 9.5, 9.6) and the remote access unit's side of an order (sections 10.1 to
10.4). -/

namespace Sys2Proof.Machine

/-- Set the executor's state. -/
def Dev.setExecutor (x : Executor) (d : Dev) : Dev := { d with uplink := { d.uplink with executor := x } }

/-- Offer a RESPONSE: admitted, the executor is IDLE; refused, it is RESPONDING (R171). -/
def Dev.offerResponse (e : Entry) (d : Dev) : Dev :=
  if d.admits e then (d.enqueue e).setExecutor .idle else d.setExecutor (.responding e)

/-- Answer an order (R171). -/
def Dev.respond (kind : Byte) (tag : Tag) (status : Status) (data : List Byte) (d : Dev) : Dev :=
  d.offerResponse (.response kind tag status data)

/-- Offer a held RESPONSE again (R171). -/
def Dev.reofferResponse (d : Dev) : Dev :=
  match d.uplink.executor with
  | .responding e => if d.admits e then (d.enqueue e).setExecutor .idle else d
  | .idle | .executing _ _ _ => d

/-- The order queue is empty, or its head spells the command (log 6). -/
def orderFits (c : Instr) : List RawOrder → Bool
  | [] => true
  | o :: _ => decodeOrder o = some c

/-- The executor takes an order: it is IDLE, a control entry is free, and the order is the head of the order queue, or is
handed over alone while the queue is empty (R170, log 6). -/
def Dev.mayTake (c : Instr) (d : Dev) : Bool :=
  d.uplink.executor = .idle && 1 ≤ d.downlink.free && orderFits c d.uplink.orders

/-- Taking an order removes it from the order queue (R170). -/
def Dev.popOrder (d : Dev) : Dev := { d with uplink := { d.uplink with orders := d.uplink.orders.tail } }

/-- Take an order and carry it out, if it may be taken (R170). -/
def Dev.takeOrder (c : Instr) (f : Dev → Dev) (d : Dev) : Dev := if d.mayTake c then f d.popOrder else d

/-! ### The kinds of the queued orders (R197) -/

/-- GATE. -/
def kindGate : Byte := 0x10
/-- REPLAY. -/
def kindReplay : Byte := 0x11
/-- CANCEL. -/
def kindCancel : Byte := 0x12
/-- HOLD. -/
def kindHold : Byte := 0x13
/-- RELEASE. -/
def kindRelease : Byte := 0x14
/-- CLEAR. -/
def kindClear : Byte := 0x15
/-- WATCH-SET. -/
def kindWatchSet : Byte := 0x20
/-- WATCH-CLEAR. -/
def kindWatchClear : Byte := 0x21
/-- PAGE. -/
def kindPage : Byte := 0x30
/-- POINT. -/
def kindPoint : Byte := 0x31
/-- READ. -/
def kindRead : Byte := 0x32
/-- WRITE. -/
def kindWrite : Byte := 0x33
/-- READ-NEXT. -/
def kindReadNext : Byte := 0x34
/-- WRITE-NEXT. -/
def kindWriteNext : Byte := 0x35
/-- MASK-WRITE. -/
def kindMaskWrite : Byte := 0x36

/-! ### The gate (section 5.4) -/

/-- Set the gate. -/
def Dev.setGate (g : Gate) (d : Dev) : Dev := { d with ring := { d.ring with gate := g } }

/-- The data of a GATE MARK answered DONE: the last started frame number and its flag (R92, section 12.3). -/
def Ring.lastStartedData (r : Ring) : List Byte :=
  match r.lastStarted with
  | none => [0, 0, 0, 0]
  | some f => leBytes 3 f.toNat ++ [1]

/-- GATE MARK: the new gate state with the status (R92). -/
def Gate.mark (n : BitVec 16) : Gate → Gate × Status
  | .running => (if n = 0 then .paused else .countdown n, .done)
  | .countdown m => (.countdown m, .busy)
  | .stepping => (.stepping, .busy)
  | .paused => (.paused, .invalid)

/-- GATE STEP: the new gate state with the status (R91). -/
def Gate.step : Gate → Gate × Status
  | .running => (.stepping, .done)
  | .countdown _ => (.stepping, .done)
  | .stepping => (.stepping, .busy)
  | .paused => (.stepping, .done)

/-! ### Replay orders (R137, R141) -/

/-- A REPLAY order: the status, and the reader after it (R137). -/
def Dev.queueReplay (q : ReplayReq) (d : Dev) : Dev × Status :=
  match d.plan? with
  | none => (d, .unplanned)
  | some p =>
    if p.height ≤ q.first then (d, .invalid)
    else if 4 ≤ d.replay.queue.length then (d, .full)
    else
      let d := { d with replay := { d.replay with queue := d.replay.queue ++ [q] } }
      (if d.replay.current.isNone then d.replaySettle else d, .done)

/-! ### Memory orders (sections 10.1 to 10.4) -/

/-- The four checks of a memory order of `n` bytes at `a`: the status of the first that fails (R175, R181). -/
def Dev.memCheck (fieldsOk : Bool) (a n : Nat) (d : Dev) : Option Status :=
  if !d.remote.enabled then some .disabled
  else if !fieldsOk then some .invalid
  else if MemSize.bytes d.mem.memSize < a + n then some .range
  else if d.mem.parked then some .parked
  else none

/-- The address of an offset in the page (R174). -/
def Remote.pageAddr (r : Remote) (offset : BitVec 24) : Nat := r.page.toNat * 16777216 + offset.toNat

/-- The remote access unit presents a request and the executor goes on EXECUTING (R170, R175). -/
def Dev.present (kind : Byte) (tag : Tag) (order : MemOrder) (use : RemoteUse) (op : BusOp) (d : Dev) : Dev :=
  Dev.setExecutor (.executing kind tag order) { d with remote := { d.remote with req := some { use := use, op := op } } }

/-- A memory order: refused by a check, or its first request presented (R175, R181). -/
def Dev.memOrder (kind : Byte) (tag : Tag) (fieldsOk : Bool) (a n : Nat) (order : MemOrder) (use : RemoteUse) (op : BusOp)
    (d : Dev) : Dev :=
  match d.memCheck fieldsOk a n with
  | some status => d.respond kind tag status []
  | none => d.present kind tag order use op

/-- The mode byte of WATCH-SET (R198). -/
def watchMode (b : BitVec 8) : Option WatchMode :=
  match b.toNat with
  | 0 => some .every
  | 1 => some .change
  | 2 => some .once
  | _ => none

/-- Set the page. -/
def Dev.setPage (n : BitVec 10) (d : Dev) : Dev := { d with remote := { d.remote with page := n } }

/-- Set the pointer. -/
def Dev.setPointer (a : Addr) (d : Dev) : Dev := { d with remote := { d.remote with pointer := a } }

/-- The pointer advances by n, mod 2^34 (R178). -/
def Dev.advancePointer (n : Nat) (d : Dev) : Dev := d.setPointer (d.remote.pointer + BitVec.ofNat 34 n)

/-- The new bytes of a MASK-WRITE: masked bits from the value, the others from the old byte (R179). -/
def maskBytes : List Byte → List Byte → List Byte → List Byte
  | o :: os, v :: vs, m :: ms => ((v &&& m) ||| (o &&& ~~~ m)) :: maskBytes os vs ms
  | _, _, _ => []

end Sys2Proof.Machine
end

