-- ==== Sys2Proof/Machine/Replies.lean ====
section
/-! DEFINITION. Memory responses (R3, R9, R14): matched by tag, counted, and routed to their owners. -/

namespace Sys2Proof.Machine

/-- The bytes of a read response; none for an error. -/
def replyBytes : MemReply → Option (List Byte)
  | .data bs => some bs
  | .done => none
  | .error => none

/-- The response is not an error. -/
def replyOk : MemReply → Bool
  | .data _ => true
  | .done => true
  | .error => false

/-- The response has the form of an answer to its request (section 1.1, log 18). -/
def InFlight.fits (r : InFlight) : MemReply → Bool
  | .data bs => !r.isWrite && bs.length = r.len
  | .done => r.isWrite
  | .error => true

/-- The record of a tag. -/
def MemPath.record (m : MemPath) (tag : Nat) : Option InFlight := m.inflight.find? fun r => r.tag = tag

/-- Remove the record of a tag (R3). -/
def Dev.dropRecord (tag : Nat) (d : Dev) : Dev :=
  { d with mem := { d.mem with inflight := d.mem.inflight.filter fun r => r.tag ≠ tag } }

/-- An error response is counted, and the tracker is given the handle (R9, R14, R64). -/
def Dev.countError (r : InFlight) (reply : MemReply) (d : Dev) : Dev :=
  if replyOk reply then d
  else r.handle.foldl (fun d h => d.errorDamage h) (d.count fun c => { c with memoryErrors := satInc c.memoryErrors })

/-- The response goes to the head side unchanged (R3). -/
def Dev.toHead (ident : Nat) (reply : MemReply) (d : Dev) : Dev :=
  { d with mem := { d.mem with headOut := some { ident := ident, reply := reply } } }

/-- The FAULT cause is set if the response is an error (R14). -/
def Dev.faultOn (reply : MemReply) (d : Dev) : Dev := if replyOk reply then d else d.setCause .fault

/-- A report write's response (R36). -/
def Dev.reportReply (reply : MemReply) (d : Dev) : Dev := d.faultOn reply

/-- A drain write's response (R190). -/
def Dev.feedReply (reply : MemReply) (d : Dev) : Dev :=
  match d.feed.drain with
  | .granted n stale => (d.drainResponse n stale (replyOk reply)).faultOn reply
  | .none => d.faultOn reply
  | .presented _ _ => d.faultOn reply

/-- The end of a memory order: DONE or FAULT, data, and the pointer's advance (R177, R178, R179). -/
def Dev.endOrder (kind : Byte) (tag : Tag) (order : MemOrder) (reply : MemReply) (d : Dev) : Dev :=
  if replyOk reply then
    match order with
    | .read _ => d.respond kind tag .done ((replyBytes reply).getD [])
    | .readNext n => (d.advancePointer n).respond kind tag .done ((replyBytes reply).getD [])
    | .write _ => d.respond kind tag .done []
    | .writeNext n => (d.advancePointer n).respond kind tag .done []
    | .maskWrite _ _ _ old => d.respond kind tag .done (old.getD [])
    | .watchSet _ _ _ _ => d.respond kind tag .done []
  else d.respond kind tag .fault []

/-- The read of a MASK-WRITE has returned: the write of the new bytes is presented, or the hold ends and the order is
FAULT (R12, R179). -/
def Dev.maskReadReply (kind : Byte) (tag : Tag) (a : Nat) (value mask : List Byte) (reply : MemReply) (d : Dev) : Dev :=
  match replyBytes reply with
  | some old => d.present kind tag (.maskWrite a value mask (some old)) .maskWrite
      (.write (BitVec.ofNat 34 a) (maskBytes old value mask))
  | none => (d.holdPort false).respond kind tag .fault []

/-- The seed read has returned (R183). -/
def Dev.seedReply (kind : Byte) (tag : Tag) (order : MemOrder) (reply : MemReply) (d : Dev) : Dev :=
  (match replyBytes reply with
    | some bs => d.installSeed bs
    | none => d.discardSeed).endOrder kind tag order reply

/-- A response to a request of the remote access unit (R177, R179, R183). -/
def Dev.remoteReply (use : RemoteUse) (reply : MemReply) (d : Dev) : Dev :=
  match d.uplink.executor with
  | .idle => d
  | .responding _ => d
  | .executing kind tag order =>
    match use, order with
    | .seed, o => d.seedReply kind tag o reply
    | .maskRead, .maskWrite a value mask _ => d.maskReadReply kind tag a value mask reply
    | .write, o => (d.faultOn reply).endOrder kind tag o reply
    | .maskWrite, o => (d.faultOn reply).endOrder kind tag o reply
    | .read, o => d.endOrder kind tag o reply
    | .maskRead, .read _ | .maskRead, .readNext _ | .maskRead, .write _ | .maskRead, .writeNext _
    | .maskRead, .watchSet _ _ _ _ => d

/-- A response reaches the owner of its record (R3). -/
def Dev.toOwner (owner : Owner) (reply : MemReply) (d : Dev) : Dev :=
  match owner with
  | .passing ident => d.toHead ident reply
  | .fetch r i q => d.fetchResponse r i q (replyBytes reply)
  | .remote use => d.remoteReply use reply
  | .report => d.reportReply reply
  | .feed => d.feedReply reply

/-- A matched response: its record goes, an error is counted, the owner takes it (R3, R9, R14). -/
def Dev.deliver (r : InFlight) (reply : MemReply) (d : Dev) : Dev :=
  ((d.dropRecord r.tag).countError r reply).toOwner r.owner reply

/-- A memory response, for owners of one class: without a record, or for another class, nothing happens; a response
without the form of an answer stops the model (log 18). -/
def Dev.response (mine : Owner → Bool) (tag : Nat) (reply : MemReply) (d : Dev) : Host.Outcome Dev Fault Refusal :=
  match d.mem.record tag with
  | none => .next d
  | some r =>
    if mine r.owner then (if r.fits reply then .next (d.deliver r reply) else .fault .malformedReply) else .next d

/-- Every owner. -/
def Owner.any : Owner → Bool := fun _ => true

/-- The report writer's records. -/
def Owner.isReport : Owner → Bool
  | .report => true
  | .passing _ | .fetch _ _ _ | .remote _ | .feed => false

/-- The return feed's records. -/
def Owner.isFeed : Owner → Bool
  | .feed => true
  | .passing _ | .fetch _ _ _ | .remote _ | .report => false

/-- The line readers' records. -/
def Owner.isFetch : Owner → Bool
  | .fetch _ _ _ => true
  | .passing _ | .feed | .remote _ | .report => false

/-- The seed read's record. -/
def Owner.isSeed : Owner → Bool
  | .remote .seed => true
  | .remote .read | .remote .write | .remote .maskRead | .remote .maskWrite | .passing _ | .feed | .report
  | .fetch _ _ _ => false

/-- The record of a MASK-WRITE's read. -/
def Owner.isMaskRead : Owner → Bool
  | .remote .maskRead => true
  | .remote .read | .remote .write | .remote .seed | .remote .maskWrite | .passing _ | .feed | .report
  | .fetch _ _ _ => false

/-- The records of a memory order's last request. -/
def Owner.isLastAccess : Owner → Bool
  | .remote .read | .remote .write | .remote .maskWrite => true
  | .remote .seed | .remote .maskRead | .passing _ | .feed | .report | .fetch _ _ _ => false

end Sys2Proof.Machine
end

