-- ==== Sys2Proof/Machine/Uplinks.lean ====
section
/-! DEFINITION. The uplink receiver (chapter 9): frames, lock, repeats, parsing. -/

namespace Sys2Proof.Machine

/-- 5,940 ticks, twice the nominal frame interval (R161). -/
def missingInterval : HeadTime := 5940

/-- Change the uplink receiver's state. -/
def Dev.updUplink (f : Uplink → Uplink) (d : Dev) : Dev := { d with uplink := f d.uplink }

/-! ### Lock (section 9.2) -/

/-- The lock state leaves LOCKED (R163, R142). -/
def Dev.loseLock (d : Dev) : Dev :=
  let d := d.updUplink fun u => { u with locked := false, goodRun := 0, badRun := 0, lastSeq := none }
  Dev.setCause .link { d with replay := { d.replay with credit := 0 } }

/-- The lock state at a bad or missing frame (R162). In LOCKED the good run is left as it stands until lock is lost
(DESIGN CHOICE, log 38). -/
def Dev.lockBad (d : Dev) : Dev :=
  if d.uplink.locked then
    if 16 ≤ d.uplink.badRun + 1 then d.loseLock else d.updUplink fun u => { u with badRun := u.badRun + 1 }
  else d.updUplink fun u => { u with goodRun := 0 }

/-- The lock state at a good frame (R162). The good run that reaches lock is kept at 4 while LOCKED (DESIGN CHOICE,
log 38). -/
def Uplink.good (u : Uplink) : Uplink :=
  if u.locked then { u with badRun := 0 }
  else if 4 ≤ u.goodRun + 1 then { u with locked := true, goodRun := 4, badRun := 0 }
  else { u with goodRun := u.goodRun + 1 }

/-- A bad frame is counted and moves the lock state (R160, R162). -/
def Dev.badFrame (d : Dev) : Dev := (d.count fun c => { c with badFrames := satInc c.badFrames }).lockBad

/-! ### Parsing (sections 9.3 to 9.5) -/

/-- Append a queued order, or discard and count it (R169). -/
def Dev.queueOrder (o : RawOrder) (d : Dev) : Dev :=
  if d.uplink.orders.length < 16 then d.updUplink fun u => { u with orders := u.orders ++ [o] }
  else d.count fun c => { c with discardedOrders := satInc c.discardedOrders }

/-- Handle one order of known kind at its place in the frame (R167, R168, R169). -/
def Dev.handleOrder (first : Bool) (arrival : HeadTime) (o : RawOrder) (d : Dev) : Dev :=
  match o.kind.toNat with
  | 0x01 =>
    if first then d.takeReference (BitVec.ofNat 32 (bodyField o.body 0 4)) arrival
    else d.count fun c => { c with misplacedReferences := satInc c.misplacedReferences }
  | 0x02 => d.takeEcho (BitVec.ofNat 16 (bodyField o.body 0 2)) (BitVec.ofNat 32 (bodyField o.body 2 4))
      (BitVec.ofNat 32 (bodyField o.body 6 4)) arrival
  | 0x03 => d.addCredit (bodyField o.body 0 1)
  | 0x04 => d.stageReturn o.body
  | _ => d.queueOrder o

/-- Parse the order area from its next byte on (R165, R166). -/
def Dev.parse (arrival : HeadTime) : Nat → Bool → List Byte → Dev → Dev
  | 0, _, _, d => d
  | _ + 1, _, [], d => d
  | _ + 1, _, [k], d => if k = 0 then d else d.count fun c => { c with overrunFrames := satInc c.overrunFrames }
  | n + 1, first, k :: len :: rest, d =>
    if k = 0 then d
    else if rest.length < len.toNat then d.count fun c => { c with overrunFrames := satInc c.overrunFrames }
    else
      Dev.parse arrival n false (rest.drop len.toNat) <|
        if orderLengthOk k.toNat len.toNat then d.handleOrder first arrival { kind := k, body := rest.take len.toNat }
        else d.count fun c => { c with unknownOrders := satInc c.unknownOrders }

/-- The order area of a frame (section 9.1). -/
def orderArea (bytes : List Byte) : List Byte := (bytes.drop 4).take 250

/-- The CRC test of R160. -/
def frameGood (bytes : List Byte) : Bool := (crc16 (bytes.take 254)).toNat = leNat ((bytes.drop 254).take 2)

/-- The frame sequence (R197). -/
def frameSeq (bytes : List Byte) : BitVec 16 := BitVec.ofNat 16 (leNat (bytes.take 2))

/-- The RESTART flag (R197). -/
def frameRestart (bytes : List Byte) : Bool := (leNat ((bytes.drop 2).take 2)).testBit 0

/-- A good frame in LOCKED repeats the last one (R164). -/
def Uplink.repeats (u : Uplink) (bytes : List Byte) : Bool :=
  u.lastSeq = some (frameSeq bytes) && !frameRestart bytes

/-- A good frame: lock, repeat test, last sequence, orders (R160, R162, R164, R165). -/
def Dev.goodFrame (arrival : HeadTime) (bytes : List Byte) (d : Dev) : Dev :=
  let d := d.updUplink Uplink.good
  let parsed := d.uplink.locked && !d.uplink.repeats bytes
  let d := d.updUplink fun u => { u with lastSeq := some (frameSeq bytes) }
  if parsed then d.parse arrival 250 true (orderArea bytes) else d

/-- The frame event (R159, R160). Without a frame in progress, or with other than 256 bytes, nothing happens (log 20). -/
def Dev.frameEvent (bytes : List Byte) (d : Dev) : Dev :=
  match d.uplink.frameStart with
  | none => d
  | some t =>
    if bytes.length = 256 then
      let d := d.updUplink fun u => { u with frameStart := none }
      if frameGood bytes then d.goodFrame t bytes else d.badFrame
    else d

/-- A frame start: arrival time, missing-frame deadline, and a frame in progress ends short as a bad one (R159, R161). -/
def Dev.startFrame (d : Dev) : Dev :=
  let short := d.uplink.frameStart.isSome
  let d := d.updUplink fun u =>
    { u with frameStart := some d.timing.now, missingDue := some (d.timing.now + missingInterval) }
  if short then d.badFrame else d

/-- The missing-frame deadline has expired: one missing frame, and the deadline set again (R161). -/
def Dev.missFrame (due : HeadTime) (d : Dev) : Dev :=
  let d := d.count fun c => { c with missingFrames := satInc c.missingFrames }
  (d.updUplink fun u => { u with missingDue := some (due + missingInterval) }).lockBad

end Sys2Proof.Machine
end

