-- ==== Sys2Proof/Machine/Downlinks.lean ====
section
/-! DEFINITION. The downlink scheduler (chapter 8): the choice at a cell boundary, and the cells. -/

namespace Sys2Proof.Machine

/-- The cell period (R144). -/
def linkPeriod : LinkRate → Nat
  | .setting0 => 594
  | .setting1 => 297
  | .setting2 => 198
  | .setting3 => 148

/-- The kind of the cell at a boundary, by rank (R146). -/
def Dev.cellKind (d : Dev) : CellKind :=
  let q := d.downlink
  if !q.ctrl.isEmpty && (q.sinceControl = 16 || 32 ≤ q.ctrl.length) then .control
  else if d.live.fetcher.offers then .live
  else if d.replay.fetcher.offers then .replay
  else if !q.ctrl.isEmpty then .control
  else .fill

/-- The number of cells of a line (R148). -/
def cellsIn (n : Nat) : Nat := (n + 1023) / 1024

/-- A header with only kind, sequence, head time and payload length, as CONTROL and FILL cells have it (R152, R153). -/
def plainHeader (kind : CellKind) (seq : BitVec 16) (time : HeadTime) (payloadLen : Nat) : CellHeader :=
  { kind := kind, concealed := false, test := false, lastCell := false, lastLine := false, seq := seq, frame := 0,
    phase := 0, base := 0, line := 0, index := 0, cells := 0, time := time, payloadLen := payloadLen }

/-- The payload bytes of the next cell of a line (R148). -/
def LineBuf.payload (x : LineBuf) : List Byte := (x.data.drop (x.nextCell * 1024)).take 1024

/-- The next cell is the last of its line. -/
def LineBuf.atLastCell (x : LineBuf) : Bool := x.nextCell + 1 = cellsIn x.data.length

/-- The header of a line cell (R149, R150). -/
def LineBuf.header (x : LineBuf) (kind : CellKind) (rec_ : Slot) (seq : BitVec 16) (time : HeadTime) : CellHeader :=
  { kind := kind, concealed := x.concealed, test := x.test, lastCell := x.atLastCell, lastLine := x.last, seq := seq,
    frame := x.frame, phase := rec_.phase, base := rec_.base, line := x.line, index := x.nextCell,
    cells := cellsIn x.data.length, time := time, payloadLen := x.payload.length }

/-- Put a built cell on the line side; the sequence, the count since the last CONTROL cell and the next boundary move
(R144, R145, R147). -/
def Downlink.sent (q : Downlink) (kind : CellKind) (bytes : List Byte) : Downlink :=
  { q with
    lineOut := some bytes
    cellSeq := q.cellSeq + 1
    sinceControl := if kind = .control then 0 else min 16 (q.sinceControl + 1)
    nextBoundary := q.nextBoundary + BitVec.ofNat 32 (linkPeriod q.rate) }

/-- Send a cell. -/
def Dev.sendCell (kind : CellKind) (bytes : List Byte) (d : Dev) : Dev :=
  { d with downlink := d.downlink.sent kind bytes }

/-- The CONTROL cell of a boundary (R152, R103). -/
def Dev.controlCell (d : Dev) : List Byte :=
  let q := d.downlink
  cellBytes (plainHeader .control q.cellSeq q.nextBoundary (16 * q.ctrl.length))
    (q.ctrl.flatMap fun e => (e.stamp q.nextBoundary).bytes)

/-- The FILL cell of a boundary (R153). -/
def Dev.fillCell (d : Dev) : List Byte :=
  cellBytes (plainHeader .fill d.downlink.cellSeq d.downlink.nextBoundary 0) []

/-- The line cell of a boundary, from a reader's head buffer (R148 to R150). -/
def Dev.lineCell (kind : CellKind) (x : LineBuf) (d : Dev) : List Byte :=
  cellBytes (x.header kind (d.ring.slot x.slot) d.downlink.cellSeq d.downlink.nextBoundary) x.payload

/-- Entries are free: a held RESPONSE and a held REPLAY-END are offered again, in either order (R152, R171, log 12). -/
def Dev.afterControl (d : Dev) : Dev :=
  match d.uplink.executor with
  | .idle => d.replaySettle
  | .executing _ _ _ => d.replaySettle
  | .responding _ =>
    let n := d.freeCount
    let d := { d with freeCount := n + 1 }
    if Config.endFirst n then d.replaySettle.reofferResponse else d.reofferResponse.replaySettle

/-- A boundary that carries a CONTROL cell (R152). -/
def Dev.sendControl (d : Dev) : Dev :=
  let d := d.sendCell .control d.controlCell
  Dev.afterControl { d with downlink := { d.downlink with ctrl := [] } }

/-- A cell of the head buffer has been taken; the last one sends the line, and its buffer is EMPTY (R124). -/
def Fetcher.cellTaken (f : Fetcher) (i : BufId) : Fetcher :=
  let x := f.buf i
  if x.atLastCell then { f.setBuf i .vacant with order := f.order.filter (· ≠ i) }
  else f.setBuf i { x with state := .sending, nextCell := x.nextCell + 1 }

/-- The sending of a line at its reader (R124, R134, R139). -/
def Dev.lineSent (r : ReaderId) (last : Bool) (d : Dev) : Dev :=
  match r with
  | .replay => d.replayLineSent last
  | .live =>
    match d.plan? with
    | none => d
    | some p => d.liveLineSent p last

/-- A boundary that carries a cell of a reader's line (R124, R148). -/
def Dev.sendLine (r : ReaderId) (kind : CellKind) (d : Dev) : Dev :=
  match (d.fetcher r).order with
  | [] => d
  | i :: _ =>
    let x := (d.fetcher r).buf i
    let e := (d.sendCell kind (d.lineCell kind x)).updFetcher r fun f => f.cellTaken i
    if x.atLastCell then e.lineSent r x.last else e

/-- The boundary event (R144 to R153). -/
def Dev.boundary (d : Dev) : Dev :=
  match d.cellKind with
  | .control => d.sendControl
  | .live => d.sendLine .live .live
  | .replay => d.sendLine .replay .replay
  | .fill => d.sendCell .fill d.fillCell

end Sys2Proof.Machine
end

