-- ==== Sys2Proof/Machine/Clock.lean ====
section
/-! DEFINITION. The tick clock: which timed events are due, and what the block does when no command waits (log 2). -/

namespace Sys2Proof.Machine

/-- The running tiles of a context whose deadlines have been reached, as events (R65 to R67). -/
def Dev.expiredTiles (d : Dev) (n : Nat) (i : CtxId) : List Instr :=
  match d.plan?, d.tracker.ctx i with
  | some p, some c =>
    ((List.range c.fronts.length).filter (d.tileExpired p c)).map fun t => .tileDeadlineExpiry n t
  | _, _ => []

/-- The first in-group capture has been reached (R114). -/
def Dev.captureIsDue (d : Dev) : Bool := dueAt d.timing.now (d.timing.inGroup.head?.map (·.at_))

/-- The executor can take the head of the order queue (R170). -/
def Dev.nextOrder (d : Dev) : Option Instr :=
  match d.uplink.executor, d.uplink.orders with
  | .idle, o :: _ => if 1 ≤ d.downlink.free then decodeOrder o else none
  | _, _ => none

/-- An event that is due. -/
def whenDue (b : Bool) (c : Instr) : List Instr := if b then [c] else []

/-- Every event due at this head time (R101, R170): boundary, timers, anchor, capture, frame start end, deadlines, and the
taking of the next order. -/
def Dev.dueEvents (d : Dev) : List Instr :=
  whenDue (reached d.timing.now d.downlink.nextBoundary) .cellBoundary ++
  whenDue d.echoIsDue .echoTimer ++
  whenDue d.reportIsDue .reportTimer ++
  whenDue d.statusIsDue .headStatusTimer ++
  whenDue (dueAt d.timing.now d.timing.nextAnchor) .anchorEvent ++
  whenDue d.captureIsDue .capture ++
  whenDue (dueAt d.timing.now d.ring.frameStartEnd) .frameStartEnd ++
  whenDue (dueAt d.timing.now d.timing.lossDeadline) .referenceLossDeadline ++
  whenDue (dueAt d.timing.now d.uplink.missingDue) .missingFrameExpiry ++
  d.expiredTiles 0 .c0 ++ d.expiredTiles 1 .c1 ++ d.nextOrder.toList

/-- One tick of head time (R101). -/
def Dev.tick (d : Dev) : Dev := d.updTiming fun t => { t with now := t.now + 1 }

/-- What happens when no command waits: nothing while RESET is asserted; else the due events become the waiting commands,
in one of their orders; else head time counts one tick (log 2, log 3). -/
def State.idle (s : State) : State :=
  if s.dev.resetAsserted then s
  else
    match s.dev.dueEvents with
    | [] => { s with dev := s.dev.tick }
    | [c] => { s with pending := [c] }
    | c :: c' :: cs =>
      { dev := { s.dev with freeCount := s.dev.freeCount + 1 }
        pending := pickOrder (Config.tieOrder s.dev.freeCount) (c :: c' :: cs) }

/-- A command that changes the block; while RESET is asserted nothing is taken (R17, R101, R119, R144, R159, log 17). -/
def State.run (f : Dev → Dev) (s : State) : Host.Outcome State Fault Refusal :=
  if s.dev.resetAsserted then .next s else .next { s with dev := f s.dev }

/-- A command that carries a memory response; while RESET is asserted it is discarded (R17). -/
def State.runReply (f : Dev → Host.Outcome Dev Fault Refusal) (s : State) : Host.Outcome State Fault Refusal :=
  if s.dev.resetAsserted then .next s
  else match f s.dev with
    | .next d => .next { s with dev := d }
    | .fault e => .fault e
    | .refused r => .refused r

end Sys2Proof.Machine
end

