-- ==== Sys2Proof/Machine/LineCommands.lean ====
section
/-! DEFINITION. Commands of the line readers, the downlink and the return feed (chapters 7, 8, 11). -/

namespace Sys2Proof.Machine

/-- The boundary event, if the boundary has been reached (R144). -/
def Dev.boundaryDue (d : Dev) : Dev := if reached d.timing.now d.downlink.nextBoundary then d.boundary else d

/-- LIVE_FETCH_BEGIN (R131). -/
def execLiveFetchBegin (s : State) : Host.Outcome State Fault Refusal := s.run fun d => d.liveBegin?.getD d

/-- REPLAY_FETCH_BEGIN (R139). -/
def execReplayFetchBegin (s : State) : Host.Outcome State Fault Refusal := s.run fun d => d.replayBegin?.getD d

/-- LINE_FETCH_RESPONSE (R123). -/
def execLineFetchResponse (tag : Nat) (reply : MemReply) (s : State) : Host.Outcome State Fault Refusal :=
  s.runReply (Dev.response Owner.isFetch tag reply)

/-- REPLAY_END_OFFER (R140). -/
def execReplayEndOffer (s : State) : Host.Outcome State Fault Refusal := s.run Dev.replaySettle

/-- CELL_BOUNDARY (R146). -/
def execCellBoundary (s : State) : Host.Outcome State Fault Refusal := s.run Dev.boundaryDue

/-- DRAIN_WRITE_BEGIN (R189). -/
def execDrainWriteBegin (s : State) : Host.Outcome State Fault Refusal := s.run Dev.drainExamine

/-- DRAIN_WRITE_DONE (R190). -/
def execDrainWriteDone (tag : Nat) (reply : MemReply) (s : State) : Host.Outcome State Fault Refusal :=
  s.runReply (Dev.response Owner.isFeed tag reply)

end Sys2Proof.Machine
end

