-- ==== Sys2Proof/Machine/OrderCommands.lean ====
section
/-! DEFINITION. Queued orders that need no memory: the gate, replay, holds, CLEAR (chapters 5, 7). -/

namespace Sys2Proof.Machine

/-- GATE RUN (R90). -/
def execGateRun (tag : Tag) (s : State) : Host.Outcome State Fault Refusal :=
  s.run (Dev.takeOrder (.gateRun tag) fun d => (d.setGate .running).respond kindGate tag .done [])

/-- GATE PAUSE (R90). -/
def execGatePause (tag : Tag) (s : State) : Host.Outcome State Fault Refusal :=
  s.run (Dev.takeOrder (.gatePause tag) fun d => (d.setGate .paused).respond kindGate tag .done [])

/-- GATE STEP (R91). -/
def execGateStep (tag : Tag) (s : State) : Host.Outcome State Fault Refusal :=
  s.run (Dev.takeOrder (.gateStep tag) fun d =>
    (d.setGate d.ring.gate.step.1).respond kindGate tag d.ring.gate.step.2 [])

/-- GATE MARK (R92). -/
def execGateMark (tag : Tag) (n : BitVec 16) (s : State) : Host.Outcome State Fault Refusal :=
  s.run (Dev.takeOrder (.gateMark tag n) fun d =>
    let g := d.ring.gate.mark n
    (d.setGate g.1).respond kindGate tag g.2 (if g.2 = .done then d.ring.lastStartedData else []))

/-- GATE with an action that names none of RUN, PAUSE, STEP and MARK (R89). -/
def execGateUnknownAction (tag : Tag) (action : BitVec 8) (s : State) : Host.Outcome State Fault Refusal :=
  s.run (Dev.takeOrder (.gateUnknownAction tag action) fun d => d.respond kindGate tag .invalid [])

/-- REPLAY (R137). -/
def execReplay (tag : Tag) (frame : FrameNo) (first count : BitVec 16) (paced : Bool) (s : State) :
    Host.Outcome State Fault Refusal :=
  s.run (Dev.takeOrder (.replay tag frame first count paced) fun d =>
    let r := d.queueReplay
      { tag := tag, frame := frame, first := first.toNat, count := count.toNat, paced := paced, cancelled := false }
    r.1.respond kindReplay tag r.2 [])

/-- CANCEL of the current request alone (R141). -/
def execCancelCurrent (tag : Tag) (s : State) : Host.Outcome State Fault Refusal :=
  s.run (Dev.takeOrder (.cancelCurrent tag) fun d => d.cancelRequest.replaySettle.respond kindCancel tag .done [])

/-- CANCEL of the current and every queued request (R141). -/
def execCancelAll (tag : Tag) (s : State) : Host.Outcome State Fault Refusal :=
  s.run (Dev.takeOrder (.cancelAll tag) fun d =>
    d.cancelRequest.cancelQueued.replaySettle.respond kindCancel tag .done [])

/-- HOLD (R94). -/
def execHold (tag : Tag) (frame : FrameNo) (s : State) : Host.Outcome State Fault Refusal :=
  s.run (Dev.takeOrder (.hold tag frame) fun d => (d.holdFrame frame).1.respond kindHold tag (d.holdFrame frame).2 [])

/-- RELEASE of a frame number (R95). -/
def execRelease (tag : Tag) (frame : FrameNo) (s : State) : Host.Outcome State Fault Refusal :=
  s.run (Dev.takeOrder (.release tag frame) fun d =>
    (d.releaseFrame frame).1.respond kindRelease tag (d.releaseFrame frame).2 [])

/-- RELEASE ALL (R95). -/
def execReleaseAll (tag : Tag) (s : State) : Host.Outcome State Fault Refusal :=
  s.run (Dev.takeOrder (.releaseAll tag) fun d => d.releaseEvery.respond kindRelease tag .done [])

/-- CLEAR (R96). -/
def execClear (tag : Tag) (s : State) : Host.Outcome State Fault Refusal :=
  s.run (Dev.takeOrder (.clear tag) fun d => d.clearRing.respond kindClear tag .done [])

end Sys2Proof.Machine
end

