-- ==== Sys2Proof/Machine/PlanCommands.lean ====
section
/-! DEFINITION. Commands of the plan unit and the report writer (chapter 2): pieces handed on alone (log 7), the report
timer, report write responses. -/

namespace Sys2Proof.Machine

/-- STAGING_WRITE: one plan-region piece (R6, R18, R29). -/
def execStagingWrite (off : BitVec 16) (bytes : List Byte) (s : State) : Host.Outcome State Fault Refusal :=
  s.run (Dev.planPiece off.toNat bytes)

/-- COMMIT: a piece that writes the commit word (R19). -/
def execCommit (word : BitVec 32) (s : State) : Host.Outcome State Fault Refusal :=
  s.run (Dev.planPiece 0x0FFC (leBytes 4 word.toNat))

/-- ATTENTION_ACK: a piece that writes the ATTENTION-ACK word (R30). -/
def execAttentionAck (causes : BitVec 32) (s : State) : Host.Outcome State Fault Refusal :=
  s.run (Dev.planPiece 0x1000 (leBytes 4 causes.toNat))

/-- RETURN_CONSUMED: a piece that writes the RETURN-CONSUMED word (R31, R191). -/
def execReturnConsumed (addr : BitVec 64) (s : State) : Host.Outcome State Fault Refusal :=
  s.run (Dev.planPiece 0x1008 (leBytes 8 addr.toNat))

/-- REPORT_TIMER (R33). -/
def execReportTimer (s : State) : Host.Outcome State Fault Refusal :=
  s.run fun d => if d.reportIsDue then d.timedReport else d

/-- REPORT_WRITE_DONE (R36). -/
def execReportWriteDone (tag : Nat) (reply : MemReply) (s : State) : Host.Outcome State Fault Refusal :=
  s.runReply (Dev.response Owner.isReport tag reply)

end Sys2Proof.Machine
end

