-- ==== Sys2Proof/Machine/PortCommands.lean ====
section
/-! DEFINITION. Commands of the memory path and of the RESET pin (chapter 1). -/

namespace Sys2Proof.Machine

/-- The block when RESET is asserted: head time held at 0, output lines low and 0, a frame in progress lost, nothing on the
line side (R17, R86, R101, R144, R159). -/
def Dev.assertReset (d : Dev) : Dev :=
  { d with
    resetAsserted := true
    timing := { d.timing with now := 0 }
    ring := { d.ring with frameStartHigh := false, frameStartEnd := none, slotLines := 0, phaseLines := 0 }
    uplink := { d.uplink with frameStart := none }
    downlink := { d.downlink with lineOut := none } }

/-- The block at the release of device reset, with the first status record due (R15, R17, R33). The straps are sampled; the
memory's parked signal is an input and stays; tags and bindings are not used again (R17, log 10, log 11). -/
def Dev.release (straps : Straps) (d : Dev) : Dev :=
  let c := clampPlanBase straps
  (Dev.released straps c.1 c.2 d.mem.parked d.mem.nextTag d.tracker.nextBinding d.freeCount).recordDue

/-- Set the level of the parked signal (R13). -/
def Dev.setParked (b : Bool) (d : Dev) : Dev := { d with mem := { d.mem with parked := b } }

/-- The head side port takes a request if it holds none; else the fabric sees the port as not ready (R1). -/
def Dev.takeRequest (ident : Nat) (op : BusOp) (d : Dev) : Dev :=
  match d.mem.transit with
  | some _ => d
  | none => { d with mem := { d.mem with transit := some { ident := ident, op := op } } }

/-- RESET_ASSERT (R17). -/
def execResetAssert (s : State) : Host.Outcome State Fault Refusal := .next { s with dev := s.dev.assertReset }

/-- DEVICE_RESET (R17). -/
def execDeviceReset (straps : Straps) (s : State) : Host.Outcome State Fault Refusal :=
  .next { s with dev := s.dev.release straps }

/-- HEAD_SIDE_REQUEST (R1). -/
def execHeadSideRequest (ident : Nat) (op : BusOp) (s : State) : Host.Outcome State Fault Refusal :=
  s.run (Dev.takeRequest ident op)

/-- GRANT_DECISION (R11). -/
def execGrantDecision (s : State) : Host.Outcome State Fault Refusal := s.run Dev.grant

/-- MEMORY_RESPONSE (R3). -/
def execMemoryResponse (tag : Nat) (reply : MemReply) (s : State) : Host.Outcome State Fault Refusal :=
  s.runReply (Dev.response Owner.any tag reply)

/-- PARKED_ASSERT (R13). -/
def execParkedAssert (s : State) : Host.Outcome State Fault Refusal := .next { s with dev := s.dev.setParked true }

/-- PARKED_WITHDRAW (R13). -/
def execParkedWithdraw (s : State) : Host.Outcome State Fault Refusal := .next { s with dev := s.dev.setParked false }

end Sys2Proof.Machine
end

