-- ==== Sys2Proof/Machine/RemoteCommands.lean ====
section
/-! DEFINITION. Orders of the remote access unit and the watch unit (chapter 10), and their memory responses. -/

namespace Sys2Proof.Machine

/-- PAGE (R174). -/
def execPage (tag : Tag) (n : BitVec 16) (s : State) : Host.Outcome State Fault Refusal :=
  s.run (Dev.takeOrder (.page tag n) fun d =>
    if n.toNat ≤ 1023 then (d.setPage (BitVec.ofNat 10 n.toNat)).respond kindPage tag .done []
    else d.respond kindPage tag .invalid [])

/-- POINT (R174). -/
def execPoint (tag : Tag) (addr : BitVec 40) (s : State) : Host.Outcome State Fault Refusal :=
  s.run (Dev.takeOrder (.point tag addr) fun d =>
    if addr.toNat < MemSize.bytes d.mem.memSize then
      (d.setPointer (BitVec.ofNat 34 addr.toNat)).respond kindPoint tag .done []
    else d.respond kindPoint tag .range [])

/-- A read count that check 2 of R175 accepts. -/
def countOk (n : Nat) : Bool := 1 ≤ n && n ≤ 8

/-- READ (R175, R177). -/
def execRead (tag : Tag) (offset : BitVec 24) (count : BitVec 8) (s : State) : Host.Outcome State Fault Refusal :=
  s.run (Dev.takeOrder (.read tag offset count) fun d =>
    let a := d.remote.pageAddr offset
    d.memOrder kindRead tag (countOk count.toNat) a count.toNat (.read count.toNat) .read
      (.read (BitVec.ofNat 34 a) count.toNat))

/-- WRITE (R175, R177). -/
def execWrite (tag : Tag) (offset : BitVec 24) (bytes : List Byte) (s : State) : Host.Outcome State Fault Refusal :=
  s.run (Dev.takeOrder (.write tag offset bytes) fun d =>
    let a := d.remote.pageAddr offset
    d.memOrder kindWrite tag true a bytes.length (.write bytes.length) .write (.write (BitVec.ofNat 34 a) bytes))

/-- READ-NEXT (R175, R177, R178). -/
def execReadNext (tag : Tag) (count : BitVec 8) (s : State) : Host.Outcome State Fault Refusal :=
  s.run (Dev.takeOrder (.readNext tag count) fun d =>
    d.memOrder kindReadNext tag (countOk count.toNat) d.remote.pointer.toNat count.toNat (.readNext count.toNat) .read
      (.read d.remote.pointer count.toNat))

/-- WRITE-NEXT (R175, R177, R178). -/
def execWriteNext (tag : Tag) (bytes : List Byte) (s : State) : Host.Outcome State Fault Refusal :=
  s.run (Dev.takeOrder (.writeNext tag bytes) fun d =>
    d.memOrder kindWriteNext tag true d.remote.pointer.toNat bytes.length (.writeNext bytes.length) .write
      (.write d.remote.pointer bytes))

/-- MASK-WRITE: its read (R175, R179). -/
def execMaskWrite (tag : Tag) (offset : BitVec 24) (value mask : List Byte) (s : State) :
    Host.Outcome State Fault Refusal :=
  s.run (Dev.takeOrder (.maskWrite tag offset value mask) fun d =>
    let a := d.remote.pageAddr offset
    d.memOrder kindMaskWrite tag true a value.length (.maskWrite a value mask none) .maskRead
      (.read (BitVec.ofNat 34 a) value.length))

/-- WATCH-SET: its checks and its seed read (R181). -/
def execWatchSet (tag : Tag) (id : BitVec 8) (addr : BitVec 40) (len mode : BitVec 8) (s : State) :
    Host.Outcome State Fault Refusal :=
  s.run (Dev.takeOrder (.watchSet tag id addr len mode) fun d =>
    d.memOrder kindWatchSet tag (id.toNat ≤ 7 && countOk len.toNat && (watchMode mode).isSome) addr.toNat len.toNat
      (.watchSet id.toNat addr.toNat len.toNat ((watchMode mode).getD .every)) .seed
      (.read (BitVec.ofNat 34 addr.toNat) len.toNat))

/-- WATCH-CLEAR (R186). -/
def execWatchClear (tag : Tag) (id : BitVec 8) (s : State) : Host.Outcome State Fault Refusal :=
  s.run (Dev.takeOrder (.watchClear tag id) fun d =>
    if id.toNat ≤ 7 then (d.setEntry id.toNat none).respond kindWatchClear tag .done []
    else d.respond kindWatchClear tag .invalid [])

/-- WATCH_SEED_DONE (R183). -/
def execWatchSeedDone (tag : Nat) (reply : MemReply) (s : State) : Host.Outcome State Fault Refusal :=
  s.runReply (Dev.response Owner.isSeed tag reply)

/-- MASK_WRITE_READ_DONE (R179). -/
def execMaskWriteReadDone (tag : Nat) (reply : MemReply) (s : State) : Host.Outcome State Fault Refusal :=
  s.runReply (Dev.response Owner.isMaskRead tag reply)

/-- REMOTE_ACCESS_DONE (R177, R178, R179). -/
def execRemoteAccessDone (tag : Nat) (reply : MemReply) (s : State) : Host.Outcome State Fault Refusal :=
  s.runReply (Dev.response Owner.isLastAccess tag reply)

end Sys2Proof.Machine
end

