-- ==== Sys2Proof/Machine/TimingCommands.lean ====
section
/-! DEFINITION. Commands of the timing generator, the ring controller's captures and the tracker's deadlines. -/

namespace Sys2Proof.Machine

/-- The anchor event, if its anchor has been reached (R113). -/
def Dev.anchorDue (d : Dev) : Dev :=
  match d.timing.nextAnchor with
  | none => d
  | some a => if reached d.timing.now a then d.takeAnchor a else d

/-- The first in-group capture, if it has been reached (R114). -/
def Dev.captureDue (d : Dev) : Dev :=
  match d.timing.inGroup with
  | [] => d
  | c :: rest => if reached d.timing.now c.at_ then d.takeInGroup c rest else d

/-- The frame start line returns low (R86). -/
def Dev.endFrameStart (d : Dev) : Dev :=
  if dueAt d.timing.now d.ring.frameStartEnd then
    { d with ring := { d.ring with frameStartHigh := false, frameStartEnd := none } }
  else d

/-- A context by its number. -/
def ctxOf : Nat → Option CtxId
  | 0 => some .c0
  | 1 => some .c1
  | _ => none

/-- A tile's deadline in a context by number (R65). -/
def Dev.expireIn (ctx tile : Nat) (d : Dev) : Dev :=
  match ctxOf ctx with
  | none => d
  | some i => d.expireTile i tile

/-- ANCHOR_EVENT (R113). -/
def execAnchorEvent (s : State) : Host.Outcome State Fault Refusal := s.run Dev.anchorDue

/-- CAPTURE (R81, R114). -/
def execCapture (s : State) : Host.Outcome State Fault Refusal := s.run Dev.captureDue

/-- FRAME_START_END (R86). -/
def execFrameStartEnd (s : State) : Host.Outcome State Fault Refusal := s.run Dev.endFrameStart

/-- TILE_DEADLINE_EXPIRY (R65). -/
def execTileDeadlineExpiry (ctx tile : Nat) (s : State) : Host.Outcome State Fault Refusal :=
  s.run (Dev.expireIn ctx tile)

/-- ECHO_TIMER (R102). -/
def execEchoTimer (s : State) : Host.Outcome State Fault Refusal :=
  s.run fun d => if d.echoIsDue then d.sendEcho else d

/-- HEAD_STATUS_TIMER (R118). -/
def execHeadStatusTimer (s : State) : Host.Outcome State Fault Refusal :=
  s.run fun d => if d.statusIsDue then d.timedStatus else d

/-- REFERENCE_LOSS_DEADLINE (R117). -/
def execReferenceLossDeadline (s : State) : Host.Outcome State Fault Refusal :=
  s.run fun d => if dueAt d.timing.now d.timing.lossDeadline then d.loseReference else d

/-- REFERENCE (R108). -/
def execReference (count : BitVec 32) (arrival : HeadTime) (s : State) : Host.Outcome State Fault Refusal :=
  s.run (Dev.takeReference count arrival)

/-- ECHO_RETURN (R104). -/
def execEchoReturn (seq : BitVec 16) (stamp : HeadTime) (turnaround : BitVec 32) (arrival : HeadTime) (s : State) :
    Host.Outcome State Fault Refusal :=
  s.run (Dev.takeEcho seq stamp turnaround arrival)

end Sys2Proof.Machine
end

