-- ==== Sys2Proof/Machine/UplinkCommands.lean ====
section
/-! DEFINITION. Commands of the uplink receiver, and the on-arrival orders handed on alone (chapter 9, log 29). -/

namespace Sys2Proof.Machine

/-- The expiry of the missing-frame deadline, if it has been reached (R161). -/
def Dev.missingDue (d : Dev) : Dev :=
  match d.uplink.missingDue with
  | none => d
  | some t => if reached d.timing.now t then d.missFrame t else d

/-- UPLINK_FRAME_START (R159). -/
def execUplinkFrameStart (s : State) : Host.Outcome State Fault Refusal := s.run Dev.startFrame

/-- UPLINK_FRAME (R160). -/
def execUplinkFrame (bytes : List Byte) (s : State) : Host.Outcome State Fault Refusal := s.run (Dev.frameEvent bytes)

/-- MISSING_FRAME_EXPIRY (R161). -/
def execMissingFrameExpiry (s : State) : Host.Outcome State Fault Refusal := s.run Dev.missingDue

/-- CREDIT (R142). -/
def execCredit (n : BitVec 8) (s : State) : Host.Outcome State Fault Refusal := s.run (Dev.addCredit n.toNat)

/-- RETURN_DATA (R187). -/
def execReturnData (bytes : List Byte) (s : State) : Host.Outcome State Fault Refusal := s.run (Dev.stageReturn bytes)

/-- RESPONSE_OFFER (R171). -/
def execResponseOffer (s : State) : Host.Outcome State Fault Refusal := s.run Dev.reofferResponse

end Sys2Proof.Machine
end

