-- ==== Sys2Proof/Machine/Dispatch.lean ====
section
/-! DEFINITION. One arm per command. -/

namespace Sys2Proof.Machine

def exec (i : Instr) (s : State) : Host.Outcome State Fault Refusal :=
  match i with
  | .resetAssert => Sys2Proof.Machine.execResetAssert s
  | .deviceReset straps => Sys2Proof.Machine.execDeviceReset straps s
  | .headSideRequest ident op => Sys2Proof.Machine.execHeadSideRequest ident op s
  | .grantDecision => Sys2Proof.Machine.execGrantDecision s
  | .stagingWrite off bytes => Sys2Proof.Machine.execStagingWrite off bytes s
  | .commit word => Sys2Proof.Machine.execCommit word s
  | .attentionAck causes => Sys2Proof.Machine.execAttentionAck causes s
  | .returnConsumed addr => Sys2Proof.Machine.execReturnConsumed addr s
  | .memoryResponse reqTag reply => Sys2Proof.Machine.execMemoryResponse reqTag reply s
  | .parkedAssert => Sys2Proof.Machine.execParkedAssert s
  | .parkedWithdraw => Sys2Proof.Machine.execParkedWithdraw s
  | .reportTimer => Sys2Proof.Machine.execReportTimer s
  | .reportWriteDone reqTag reply => Sys2Proof.Machine.execReportWriteDone reqTag reply s
  | .anchorEvent => Sys2Proof.Machine.execAnchorEvent s
  | .capture => Sys2Proof.Machine.execCapture s
  | .frameStartEnd => Sys2Proof.Machine.execFrameStartEnd s
  | .tileDeadlineExpiry ctx tile => Sys2Proof.Machine.execTileDeadlineExpiry ctx tile s
  | .echoTimer => Sys2Proof.Machine.execEchoTimer s
  | .headStatusTimer => Sys2Proof.Machine.execHeadStatusTimer s
  | .referenceLossDeadline => Sys2Proof.Machine.execReferenceLossDeadline s
  | .uplinkFrameStart => Sys2Proof.Machine.execUplinkFrameStart s
  | .uplinkFrame bytes => Sys2Proof.Machine.execUplinkFrame bytes s
  | .missingFrameExpiry => Sys2Proof.Machine.execMissingFrameExpiry s
  | .reference count arrival => Sys2Proof.Machine.execReference count arrival s
  | .echoReturn seq stamp turnaround arrival => Sys2Proof.Machine.execEchoReturn seq stamp turnaround arrival s
  | .credit n => Sys2Proof.Machine.execCredit n s
  | .returnData bytes => Sys2Proof.Machine.execReturnData bytes s
  | .gateRun tag => Sys2Proof.Machine.execGateRun tag s
  | .gatePause tag => Sys2Proof.Machine.execGatePause tag s
  | .gateStep tag => Sys2Proof.Machine.execGateStep tag s
  | .gateMark tag n => Sys2Proof.Machine.execGateMark tag n s
  | .replay tag frame first count paced => Sys2Proof.Machine.execReplay tag frame first count paced s
  | .cancelCurrent tag => Sys2Proof.Machine.execCancelCurrent tag s
  | .cancelAll tag => Sys2Proof.Machine.execCancelAll tag s
  | .hold tag frame => Sys2Proof.Machine.execHold tag frame s
  | .release tag frame => Sys2Proof.Machine.execRelease tag frame s
  | .releaseAll tag => Sys2Proof.Machine.execReleaseAll tag s
  | .clear tag => Sys2Proof.Machine.execClear tag s
  | .watchSet tag id addr len mode => Sys2Proof.Machine.execWatchSet tag id addr len mode s
  | .watchSeedDone reqTag reply => Sys2Proof.Machine.execWatchSeedDone reqTag reply s
  | .watchClear tag id => Sys2Proof.Machine.execWatchClear tag id s
  | .page tag n => Sys2Proof.Machine.execPage tag n s
  | .point tag addr => Sys2Proof.Machine.execPoint tag addr s
  | .read tag offset count => Sys2Proof.Machine.execRead tag offset count s
  | .write tag offset bytes => Sys2Proof.Machine.execWrite tag offset bytes s
  | .readNext tag count => Sys2Proof.Machine.execReadNext tag count s
  | .writeNext tag bytes => Sys2Proof.Machine.execWriteNext tag bytes s
  | .maskWrite tag offset value mask => Sys2Proof.Machine.execMaskWrite tag offset value mask s
  | .maskWriteReadDone reqTag reply => Sys2Proof.Machine.execMaskWriteReadDone reqTag reply s
  | .remoteAccessDone reqTag reply => Sys2Proof.Machine.execRemoteAccessDone reqTag reply s
  | .responseOffer => Sys2Proof.Machine.execResponseOffer s
  | .liveFetchBegin => Sys2Proof.Machine.execLiveFetchBegin s
  | .replayFetchBegin => Sys2Proof.Machine.execReplayFetchBegin s
  | .lineFetchResponse reqTag reply => Sys2Proof.Machine.execLineFetchResponse reqTag reply s
  | .replayEndOffer => Sys2Proof.Machine.execReplayEndOffer s
  | .cellBoundary => Sys2Proof.Machine.execCellBoundary s
  | .drainWriteBegin => Sys2Proof.Machine.execDrainWriteBegin s
  | .drainWriteDone reqTag reply => Sys2Proof.Machine.execDrainWriteDone reqTag reply s
  | .gateUnknownAction tag action => Sys2Proof.Machine.execGateUnknownAction tag action s

end Sys2Proof.Machine
end

