-- ==== Sys2Proof/Safety.lean ====
section
/-! DEFINITION. What counts as a safe state of the block, part by part, and the words the claims use. -/

namespace Sys2Proof.Machine

/-! ### Safe states -/

/-- The control queue holds at most 64 entries and at most one WATCH entry for each id, the count since the last CONTROL
cell is at most 16, and what the executor holds for admission is a RESPONSE (R147, R154, R155, R170). -/
def Dev.QueueSafe (d : Dev) : Prop :=
  d.downlink.ctrl.length ≤ 64 ∧ d.downlink.sinceControl ≤ 16 ∧
  (∀ id, d.downlink.ctrl.countP (Entry.isWatch id) ≤ 1) ∧
  (∀ e, d.uplink.executor = .responding e → ∃ kind tag status data, e = .response kind tag status data)

/-- At most 64 requests are in flight, each with its own tag, one given before; the steal counter is at most 16
(R3, R11). -/
def Dev.PathSafe (d : Dev) : Prop :=
  d.mem.inflight.length ≤ 64 ∧ d.mem.steal ≤ 16 ∧ (∀ r ∈ d.mem.inflight, r.tag < d.mem.nextTag) ∧
  (d.mem.inflight.map (·.tag)).Nodup

/-- The order queue holds at most 16 orders and the runs stay in their ranges (R162, R169). -/
def Dev.UplinkSafe (d : Dev) : Prop :=
  d.uplink.orders.length ≤ 16 ∧ d.uplink.goodRun ≤ 4 ∧ d.uplink.badRun ≤ 16

/-- The delay estimate is at most 32,767, an outlier run stays below the reseed, and the lock run fits the genlock state
(R107, R116). -/
def Dev.TimingSafe (d : Dev) : Prop :=
  d.timing.delay ≤ 32767 ∧ d.timing.outlierRun ≤ 3 ∧
  match d.timing.genlock with
  | .free => d.timing.lockRun = 0
  | .locking => d.timing.lockRun ≤ 2
  | .locked => d.timing.lockRun = 3

/-- The slot table has 32 records, an EMPTY record holds nothing, the hold count is the number of held slots and at most
K − 3, and the frame start line is high exactly while its end is set (R77, R78, R86, R94). -/
def Dev.RingSafe (d : Dev) : Prop :=
  d.ring.slots.length = 32 ∧ (∀ x ∈ d.ring.slots, x.state = .empty → x = Slot.vacant) ∧
  d.ring.holdCount = d.ring.slots.countP (·.held) ∧ d.ring.holdCount ≤ (d.plan?.map (·.slots)).getD 0 - 3 ∧
  (d.ring.frameStartHigh = true ↔ d.ring.frameStartEnd.isSome = true)

/-- The replay queue holds at most four requests and the credit is at most 1,023 (R136, R141, R142). -/
def Dev.ReplaySafe (d : Dev) : Prop := d.replay.queue.length ≤ 4 ∧ d.replay.credit ≤ 1023

/-- No return ring, or one within the limits of R22. -/
def ringLimits (start stop : Nat) : Prop := (start = 0 ∧ stop = 0) ∨ (start < stop ∧ 4096 ≤ stop - start)

/-- The drain write in hand fits the ring: a presented one begins at P with staged bytes, and its bytes fit before the ring
end and in the room (R189). -/
def Feed.DrainFits (f : Feed) : Prop :=
  match f.drain with
  | .none => True
  | .presented a n => a = f.producer ∧ f.inForce = true ∧ n ≤ f.fifo.length ∧ f.producer + n ≤ f.stop ∧
      f.occupancy + n ≤ f.size - 64
  | .granted _ true => True
  | .granted n false => f.inForce = true ∧ f.producer + n ≤ f.stop ∧ f.occupancy + n ≤ f.size - 64

/-- The return feed's FIFO and ring pointers are in their ranges, and the occupancy is at most size − 64
(R187, R188, R189). -/
def Feed.Safe (f : Feed) : Prop :=
  f.fifo.length ≤ 4096 ∧ ringLimits f.start f.stop ∧
  (f.inForce = true → f.start ≤ f.producer ∧ f.producer < f.stop ∧ f.start ≤ f.consumer ∧ f.consumer < f.stop ∧
    f.occupancy ≤ f.size - 64) ∧ f.DrainFits

/-- The limits that R20 to R23 put on a plan in force, as far as numbers go. -/
def Plan.Limits (p : Plan) : Prop :=
  4 ≤ p.slots ∧ p.slots ≤ 32 ∧ 1 ≤ p.speed ∧ p.speed ≤ 8 ∧ 1000000 ≤ p.period ∧ p.period ≤ 8000000 ∧
  p.advance < p.period ∧ 1 ≤ p.lockWindow ∧ p.lockWindow ≤ 4095 ∧ 1 ≤ p.rowCount ∧ p.rowCount ≤ 63 ∧
  1 ≤ p.startAllowance ∧ 64 ≤ p.width ∧ p.width ≤ 8192 ∧ 16 ≤ p.height ∧ p.height ≤ 4352 ∧ 1 ≤ p.bpp ∧ p.bpp ≤ 4 ∧
  1 ≤ p.strips.length ∧ p.strips.length ≤ 4 ∧ 1 ≤ p.tiles.length ∧ p.tiles.length ≤ 8 ∧ ringLimits p.retStart p.retEnd

/-- The shadow and the live-word copy are canonical, and the pending and the working plan are within the limits
(R18, R20, R23, R29). -/
def Dev.PlanSafe (d : Dev) : Prop :=
  d.plan.shadow.wf = true ∧ d.plan.live.wf = true ∧ (∀ w, d.plan.pending = some w → w.plan.Limits) ∧
  (∀ w, d.plan.working = some w → w.plan.Limits)

/-- The return feed is safe, and so are the plans that give it its ring. -/
def Dev.FeedSafe (d : Dev) : Prop := d.feed.Safe ∧ d.PlanSafe

/-- The capture schedule holds at most the next anchor and seven in-group captures (R112), under plans within limits. -/
def Dev.ScheduleSafe (d : Dev) : Prop := d.timing.inGroup.length ≤ 7 ∧ d.PlanSafe

/-- No two non-EMPTY slots carry one frame number (R79); the age order lists every non-EMPTY slot once, and no other (R80);
every FILLING slot is bound to exactly one context, every bound context to a FILLING slot, and the binding order lists each
bound context once (R53); without a plan both contexts are free. -/
def Dev.BindingSafe (d : Dev) : Prop :=
  (∀ s u, s ≠ u → (d.ring.slot s).state ≠ .empty → (d.ring.slot u).state ≠ .empty →
    (d.ring.slot s).frame ≠ (d.ring.slot u).frame) ∧
  d.ring.age.Nodup ∧ (∀ s, s ∈ d.ring.age ↔ (d.ring.slot s).state ≠ .empty) ∧
  (∀ i c, d.tracker.ctx i = some c → (d.ring.slot c.slot).state = .filling) ∧
  (∀ s, (d.ring.slot s).state = .filling → ∃ i c, d.tracker.ctx i = some c ∧ c.slot = s) ∧
  (∀ i j c e, d.tracker.ctx i = some c → d.tracker.ctx j = some e → c.slot = e.slot → i = j) ∧
  d.tracker.order.Nodup ∧ (∀ i, i ∈ d.tracker.order ↔ (d.tracker.ctx i).isSome = true) ∧
  (d.plan.working = none → d.tracker.ctx0 = none ∧ d.tracker.ctx1 = none)

/-- A damage list as R61 wants it: at most eight ranges, each within the tile's rows, ascending, disjoint and not
adjacent. -/
def RangesSafe (rows : Nat) (list : List RowRange) : Prop :=
  list.length ≤ 8 ∧ (∀ r ∈ list, r.first ≤ r.last ∧ r.last < rows) ∧ list.Pairwise fun a b => a.last + 1 < b.first

/-- A front as R56 and R68 leave it: the end of the last row once FINISHED, else a byte within the tile. -/
def FrontSafe (rows rowLen : Nat) (g : Front) : Prop :=
  match g.status with
  | .finished => g.row = rows ∧ g.byte = 0
  | .running => g.row < rows ∧ g.byte < rowLen
  | .stalled => g.row < rows ∧ g.byte < rowLen

/-- Every tile of the plan has a row, and every row a byte (R20, R21, R44). -/
def Plan.TilesFilled (p : Plan) : Prop :=
  ∀ t, t < p.tiles.length → 1 ≤ p.rows (p.tileAt t) ∧ 1 ≤ p.rowLen (p.tileAt t)

/-- Under the working plan every damage list of the slot table is one of R61's, and a bound context has one front, within
its bounds, for each tile (R52, R53, R56, R61, R68). A handle entry in flight names no binding that is still to come, and
while its binding is in force its rows are rows of its tile (R5, R46, R64). -/
def Dev.TrackSafe (d : Dev) : Prop :=
  (∀ w, d.plan.pending = some w → w.plan.TilesFilled) ∧
  (∀ i c, d.tracker.ctx i = some c → c.binding < d.tracker.nextBinding) ∧
  (∀ r ∈ d.mem.inflight, ∀ h ∈ r.handle, ∀ b, h.binding = some b → b < d.tracker.nextBinding) ∧
  ∀ w, d.plan.working = some w → w.plan.TilesFilled ∧
    (∀ x ∈ d.ring.slots, ∀ t, RangesSafe (w.plan.rows (w.plan.tileAt t)) (x.damage.getD t [])) ∧
    ∀ i c, d.tracker.ctx i = some c → c.fronts.length = w.plan.tiles.length ∧
      (∀ t g, c.fronts[t]? = some g → FrontSafe (w.plan.rows (w.plan.tileAt t)) (w.plan.rowLen (w.plan.tileAt t)) g) ∧
      ∀ r ∈ d.mem.inflight, ∀ h ∈ r.handle, h.binding = some c.binding →
        h.first ≤ h.last ∧ h.last < w.plan.rows (w.plan.tileAt h.tile)

/-- While RESET is asserted head time is 0 and the output lines are low and 0 (R86, R101). -/
def Dev.HeldInReset (d : Dev) : Prop :=
  d.resetAsserted = true → d.timing.now = 0 ∧ d.ring.frameStartHigh = false ∧ d.ring.slotLines = 0 ∧
    d.ring.phaseLines = 0 ∧ d.attentionLine = false

/-! ### Words of the claims -/

/-- A row lies in a range of a damage list (R75). -/
def rowIn (list : List RowRange) (row : Nat) : Prop := ∃ r ∈ list, r.first ≤ row ∧ row ≤ r.last

/-- What setting a cause does to the report writer: a cause that is set already changes nothing; one that was clear makes a
record due, which is started with the next number, or flagged while another is being written (R32, R33, R34). -/
def Report.CauseSet (c : Cause) (r r' : Report) : Prop :=
  r'.causes = r.causes.set c ∧ (r.causes.get c = true → r' = r) ∧
  (r.causes.get c = false → r.writing = none → r'.recordNumber = r.recordNumber + 1) ∧
  (r.causes.get c = false → r.writing ≠ none → r' = { r with causes := r.causes.set c, recordDue := true })

/-- The executor can take this order now (R170). -/
def Ready (c : Instr) (s : State) : Prop :=
  s.dev.resetAsserted = false ∧ s.dev.uplink.executor = .idle ∧ s.dev.downlink.ctrl.length < 64 ∧
  orderFits c s.dev.uplink.orders = true

/-- The block after a RESPONSE was offered: with an entry free it is the last of the control queue and the executor is IDLE;
with none free the executor is RESPONDING and holds it (R171). -/
def Dev.responds (kind : Byte) (tag : Tag) (status : Status) (data : List Byte) (d : Dev) : Dev :=
  if d.downlink.ctrl.length < 64 then { d with
    uplink := { d.uplink with executor := .idle }
    downlink := { d.downlink with ctrl := d.downlink.ctrl ++ [.response kind tag status data] } }
  else { d with uplink := { d.uplink with executor := .responding (.response kind tag status data) } }

/-- The block after an order was taken and answered: the order has left its queue, and its RESPONSE was offered
(R170, R171). -/
def Dev.answered (kind : Byte) (tag : Tag) (status : Status) (data : List Byte) (d : Dev) : Dev :=
  Dev.responds kind tag status data { d with uplink := { d.uplink with orders := d.uplink.orders.tail } }

/-- The block after a memory order was taken and its first request presented (R170, R175). -/
def Dev.presented (kind : Byte) (tag : Tag) (order : MemOrder) (use : RemoteUse) (op : BusOp) (d : Dev) : Dev :=
  { d with
    uplink := { d.uplink with orders := d.uplink.orders.tail, executor := .executing kind tag order }
    remote := { d.remote with req := some { use := use, op := op } } }

/-- The block after a further command. -/
def Dev.thenDo (c : Instr) (d : Dev) : Dev :=
  match exec c ⟨d, []⟩ with
  | .next t => t.dev
  | .fault _ => d
  | .refused _ => d

/-- The block after the live reader has begun the fetches it may begin: at most one for each buffer (R131). -/
def Dev.fetchLive (d : Dev) : Dev := (d.thenDo .liveFetchBegin).thenDo .liveFetchBegin

/-- The block after the replay reader has begun the fetches it may begin: at most one for each buffer (R139). -/
def Dev.fetchReplay (d : Dev) : Dev := (d.thenDo .replayFetchBegin).thenDo .replayFetchBegin

/-- The status with which a request ends that CLEAR, apply or CANCEL ends: CANCELLED, but a request already in ENDING keeps
its own (R141, R143). -/
def Stage.cancelled : Stage → Status
  | .ending status => status
  | .waitingClose => .cancelled
  | .sending => .cancelled

/-- The replay reader with every request ended and no REPLAY-END offered yet: the current request is in ENDING without its
mark, the queued ones are flagged cancelled, the lines are dropped (R96, R141, R143). -/
def ReplayReader.allEnded (r : ReplayReader) : ReplayReader :=
  { r with
    queue := r.queue.map fun q => { q with cancelled := true }
    current := r.current.map fun c => { c with stage := .ending c.stage.cancelled, marked := false }
    fetcher := r.fetcher.dropAll }

/-- The REPLAY-END entries that ending every request gives: the current one's with its lines sent, then one CANCELLED with
no line for each queued request, in the order of the queue (R138, R140, R141, R143). -/
def ReplayReader.ends (r : ReplayReader) : List Entry :=
  (r.current.toList.map fun c => Entry.replayEnd c.stage.cancelled c.req.tag c.req.frame c.linesSent) ++
    r.queue.map fun q => Entry.replayEnd .cancelled q.tag q.frame 0

/-- The block with another context under a number. -/
def Dev.withCtx (i : CtxId) (c : Option Context) (d : Dev) : Dev :=
  match i with
  | .c0 => { d with tracker := { d.tracker with ctx0 := c } }
  | .c1 => { d with tracker := { d.tracker with ctx1 := c } }

/-- The binding that a handle entry on a slot records: that of the one context bound to it, if it is FILLING; else none
(R5, R53). -/
def Dev.Binds (d : Dev) (s : Nat) (b : Option Nat) : Prop :=
  ((d.ring.slot s).state ≠ .filling ∧ b = none) ∨
  ∃ i c, (d.ring.slot s).state = .filling ∧ d.tracker.ctx i = some c ∧ c.slot = s ∧
    (∀ j e, d.tracker.ctx j = some e → e.slot = s → j = i) ∧ b = some c.binding

/-- The slot table after an error response to a write with this tracking handle: the rows of an entry whose binding a
context of its slot still carries join the damage list, the others are dropped (R64). -/
def Dev.handleDamage (handle : List HandleEntry) (d : Dev) : List Slot :=
  match d.plan.working with
  | none => d.ring.slots
  | some w =>
    let add (h : HandleEntry) (x : Slot) : Slot :=
      { x with damage := x.damage.modify h.tile (addRange (w.plan.rows (w.plan.tileAt h.tile)) h.first h.last) }
    handle.foldl (fun slots h =>
      if [CtxId.c0, .c1].any (fun i => (d.tracker.ctx i).any fun c => h.binding = some c.binding && c.slot = h.slot) then
        slots.modify h.slot (add h)
      else slots) d.ring.slots

end Sys2Proof.Machine
end

