-- ==== Sys2Proof/Certificates/Slice0/Obligations.lean ====
section
/-! DEFINITION. The statements for the provers, one `Obligations.<Name>` each. A state is written ⟨d, q⟩: the block and
the commands that wait. -/

open Sys2Proof Sys2Proof.Machine

/-! ### The step, the queue, the orders' bytes -/

/-- One step takes the command at the front of the queue and is `exec` of it with the queue's rest. -/
def Obligations.StepRunsFrontCommand : Prop :=
  ∀ (c : Instr) (d : Dev) (q : List Instr), step ⟨d, c :: q⟩ = exec c ⟨d, q⟩

/-- A command neither reads nor changes the queue of waiting commands: with another queue it does the same to the block. -/
def Obligations.ExecKeepsQueue : Prop :=
  ∀ (c : Instr) (d : Dev) (q : List Instr) (t : State), exec c ⟨d, q⟩ = .next t →
    t.pending = q ∧ ∀ q', exec c ⟨d, q'⟩ = .next ⟨t.dev, q'⟩

/-- With no command waiting: nothing under RESET; the events due become the waiting commands, each once, in some order;
with none due head time counts one tick. The clock as idle step and the free order are the model's own (logs 2 and 3).
Which events are due: each timed command exactly when its time is reached, the report and the head-status timer only
while UNPLANNED, a tile's deadline only while the tile is RUNNING, counted from the last advance, or before the first write
from the frame start; and the order at the head of the queue exactly when the executor is IDLE and a control entry is free
(R33, R65, R66, R67, R86, R101, R102, R113, R114, R117, R118, R144, R163, R170). -/
def Obligations.IdleStepIsTheClock : Prop :=
  ∀ d : Dev,
    (d.resetAsserted = true → step ⟨d, []⟩ = .next ⟨d, []⟩) ∧
    (d.resetAsserted = false → d.dueEvents = [] →
      step ⟨d, []⟩ = .next ⟨{ d with timing := { d.timing with now := d.timing.now + 1 } }, []⟩) ∧
    (d.resetAsserted = false → d.dueEvents ≠ [] → ∃ n q, step ⟨d, []⟩ = .next ⟨{ d with freeCount := n }, q⟩ ∧
      q.Perm d.dueEvents) ∧
    d.dueEvents.Nodup ∧
    let due (t : HeadTime) : Prop := (d.timing.now - t).toNat < 2147483648
    let unplanned := d.plan.state = .unplanned
    ∀ c : Instr, c ∈ d.dueEvents ↔
      (c = .cellBoundary ∧ due d.downlink.nextBoundary) ∨
      (c = .echoTimer ∧ due d.timing.echoDue) ∨
      (c = .reportTimer ∧ unplanned ∧ due d.report.timerDue) ∨
      (c = .headStatusTimer ∧ unplanned ∧ due d.timing.statusDue) ∨
      (c = .anchorEvent ∧ ∃ a, d.timing.nextAnchor = some a ∧ due a) ∨
      (c = .capture ∧ ∃ g rest, d.timing.inGroup = g :: rest ∧ due g.at_) ∨
      (c = .frameStartEnd ∧ ∃ t, d.ring.frameStartEnd = some t ∧ due t) ∨
      (c = .referenceLossDeadline ∧ ∃ t, d.timing.lossDeadline = some t ∧ due t) ∨
      (c = .missingFrameExpiry ∧ ∃ t, d.uplink.missingDue = some t ∧ due t) ∨
      (∃ n i t w x g, c = .tileDeadlineExpiry n t ∧ (n = 0 ∧ i = .c0 ∨ n = 1 ∧ i = .c1) ∧ d.plan.working = some w ∧
        d.tracker.ctx i = some x ∧ x.fronts[t]? = some g ∧ g.status = .running ∧
        due (if g.seen then g.lastAdvance + BitVec.ofNat 32 (2 ^ w.plan.rowUnit * 256 * w.plan.rowCount)
          else x.frameStart + BitVec.ofNat 32 w.plan.startAllowance)) ∨
      ∃ o rest, d.uplink.executor = .idle ∧ d.downlink.ctrl.length < 64 ∧ d.uplink.orders = o :: rest ∧
        decodeOrder o = some c

/-- Every well-formed queued order, written as bytes and read again, is itself (R197, R198): no operand bit is lost. -/
def Obligations.OrderBytesRoundTrip : Prop :=
  ∀ (c : Instr) (o : RawOrder), c.wf = true → encodeOrder c = some o → decodeOrder o = some c

/-! ### Invariants that every step keeps -/

/-- The control queue, the cells-since-control count and the held RESPONSE stay in their bounds (R147, R154, R155, R171). -/
def Obligations.QueueStaysSafe : Prop := ∀ s t : State, s.dev.QueueSafe → step s = .next t → t.dev.QueueSafe

/-- At most 64 requests are in flight, their tags differ, and the steal counter is at most 16 (R3, R11). -/
def Obligations.PathStaysSafe : Prop := ∀ s t : State, s.dev.PathSafe → step s = .next t → t.dev.PathSafe

/-- The order queue, the lock runs, the delay estimate, the outlier run, the lock run, the replay queue and the credit stay
in their ranges (R107, R116, R136, R141, R142, R162, R169). -/
def Obligations.CountsStaySafe : Prop :=
  ∀ s t : State, s.dev.UplinkSafe → s.dev.TimingSafe → s.dev.ReplaySafe → step s = .next t →
    t.dev.UplinkSafe ∧ t.dev.TimingSafe ∧ t.dev.ReplaySafe

/-- The slot table keeps 32 records with the EMPTY ones bare, and the hold count stays the number of held slots, at most
K − 3 (R77, R78, R94). Under the working plan every damage list of the slot table stays one of R61's, and every bound
context keeps one front for each tile: of a FINISHED tile at the end of its last row, of any other within the tile; a write
in flight that an error may still turn into damage names rows of its tile (R46, R52, R53, R56, R61, R64, R68). -/
def Obligations.RingStaysSafe : Prop :=
  (∀ s t : State, s.dev.RingSafe → step s = .next t → t.dev.RingSafe) ∧
  ∀ s t : State, s.dev.TrackSafe → step s = .next t → t.dev.TrackSafe

/-- No two non-EMPTY slots carry one frame number; the age order lists every non-EMPTY slot once and no other; every FILLING
slot is bound to exactly one context; the binding order lists the bound contexts, each once (R53, R79, R80). The slot
table's form and the plans' limits are premises: they are kept by every step too (R77, R20). -/
def Obligations.BindingsStaySafe : Prop :=
  ∀ s t : State, s.dev.RingSafe → s.dev.PlanSafe → s.dev.BindingSafe → step s = .next t → t.dev.BindingSafe

/-- Of the return feed: the bytes written to the return ring and not yet consumed never exceed size − 64, the FIFO holds at
most 4,096 bytes, and the drain write in hand fits. Of the capture schedule: it holds at most the next anchor and seven
in-group captures, and every plan taken into use lies within the limits of validation and clamping
(R20 to R23, R112, R187, R188, R189). -/
def Obligations.FeedAndScheduleStaySafe : Prop :=
  (∀ s t : State, s.dev.FeedSafe → step s = .next t → t.dev.FeedSafe) ∧
  (∀ s t : State, s.dev.ScheduleSafe → step s = .next t → t.dev.ScheduleSafe)

/-- The state after reset meets every invariant of these statements. -/
def Obligations.ResetIsSafe : Prop :=
  State.reset.dev.QueueSafe ∧ State.reset.dev.PathSafe ∧ State.reset.dev.UplinkSafe ∧ State.reset.dev.TimingSafe ∧
  State.reset.dev.RingSafe ∧ State.reset.dev.ReplaySafe ∧ State.reset.dev.FeedSafe ∧ State.reset.dev.ScheduleSafe ∧
  State.reset.dev.BindingSafe ∧ State.reset.dev.TrackSafe ∧ State.reset.dev.HeldInReset

/-! ### Reset -/

/-- The values the spec gives the block's state at the release of device reset. The straps of `State.reset` are the model's
choice (log 1) and no clause rests on one. -/
def Obligations.ResetValues : Prop :=
  let d := State.reset.dev
  d.mem.transit = none ∧ d.mem.inflight = [] ∧ d.mem.steal = 0 ∧ d.mem.portHeld = false ∧ d.mem.lastRank3 = .report ∧
  (∀ a, d.plan.shadow.read a = 0) ∧ d.plan.pending = none ∧ d.plan.working = none ∧ d.plan.state = .unplanned ∧
  d.plan.last = .none ∧ (∀ a, d.plan.live.read a = 0) ∧ d.counters = .zero ∧ d.tracker.ctx0 = none ∧
  d.tracker.ctx1 = none ∧ d.tracker.order = [] ∧ d.ring.slots = List.replicate 32 .vacant ∧ d.ring.age = [] ∧
  d.ring.frameCounter = 0 ∧ d.ring.lastStarted = none ∧ d.ring.gate = .running ∧ d.ring.holdCount = 0 ∧
  d.ring.frameStartHigh = false ∧ d.ring.slotLines = 0 ∧ d.ring.phaseLines = 0 ∧ d.timing.now = 0 ∧
  d.timing.delay = 0 ∧ d.timing.delayValid = false ∧ d.timing.outlierRun = 0 ∧ d.timing.echoSeq = 0 ∧
  d.timing.echoOut = false ∧ d.timing.nextAnchor = none ∧ d.timing.inGroup = [] ∧ d.timing.nextBase = 0 ∧
  d.timing.genlock = .free ∧ d.timing.lockRun = 0 ∧ d.timing.lossDeadline = none ∧ d.timing.phaseError = 0 ∧
  d.live.active = none ∧ d.live.waiting = none ∧ d.live.fetcher.bufA = .vacant ∧ d.live.fetcher.bufB = .vacant ∧
  d.replay.queue = [] ∧ d.replay.current = none ∧ d.replay.credit = 0 ∧ d.downlink.ctrl = [] ∧
  d.downlink.cellSeq = 0 ∧ d.downlink.sinceControl = 0 ∧ d.downlink.nextBoundary = 0 ∧ d.uplink.frameStart = none ∧
  d.uplink.missingDue = none ∧ d.uplink.locked = false ∧ d.uplink.goodRun = 0 ∧ d.uplink.badRun = 0 ∧
  d.uplink.lastSeq = none ∧ d.uplink.orders = [] ∧ d.uplink.executor = .idle ∧ d.remote.page = 0 ∧
  d.remote.pointer = 0 ∧ d.watch.table = List.replicate 8 none ∧ d.watch.seeding = none ∧ d.feed.start = 0 ∧
  d.feed.stop = 0 ∧ d.feed.producer = 0 ∧ d.feed.consumer = 0 ∧ d.feed.fifo = [] ∧ d.feed.drain = .none ∧
  d.feed.pendingDrop = 0

/-- RESET_ASSERT holds head time at 0 and the output lines low and 0, loses a frame in progress and silences the line side;
while RESET is asserted nothing but the pin and the memory's parked signal changes the block (that every other command is
then without effect is the model's reading, log 17). DEVICE_RESET samples the straps, clamps a plan base beyond the memory
and then sets STRAP, sets every block to its reset state, and presents the first status record's first write, whose snapshot
shows the causes (R15, R17, R28, R33, R34, R36, R86, R101, R144, R159). Four things of the release are the model's own: the
parked level is an input and is kept as it stands (log 17, by inference), the count that selects free values is kept
(log 3), a request tag is not given twice (log 10), and neither is a binding (log 11). -/
def Obligations.ResetHoldsAndReleases : Prop :=
  (∀ (d : Dev) (q : List Instr), exec .resetAssert ⟨d, q⟩ = .next ⟨{ d with
      resetAsserted := true
      timing := { d.timing with now := 0 }
      ring := { d.ring with frameStartHigh := false, frameStartEnd := none, slotLines := 0, phaseLines := 0 }
      uplink := { d.uplink with frameStart := none }
      downlink := { d.downlink with lineOut := none } }, q⟩) ∧
  (∀ (c : Instr) (d : Dev) (q : List Instr), d.resetAsserted = true → c ≠ .resetAssert →
    (∀ straps, c ≠ .deviceReset straps) → c ≠ .parkedAssert → c ≠ .parkedWithdraw → exec c ⟨d, q⟩ = .next ⟨d, q⟩) ∧
  (∀ s t : State, s.dev.HeldInReset → step s = .next t → t.dev.HeldInReset) ∧
  ∀ (d : Dev) (q : List Instr) (straps : Straps),
    let fits := straps.planBase.toNat * 1073741824 < MemSize.bytes straps.memSize
    let base := if fits then straps.planBase else 0
    let e := Dev.released straps base (!decide fits) d.mem.parked d.mem.nextTag d.tracker.nextBinding d.freeCount
    exec (.deviceReset straps) ⟨d, q⟩ = .next ⟨{ e with report := { e.report with
      recordNumber := 1, writing := some (e.snapshot 1), halvesLeft := 1, presented := some .firstHalf } }, q⟩ ∧
    e.report.causes = { strap := !decide fits, commit := false, link := false, genlock := false, fault := false } ∧
    e.mem.memSize = straps.memSize ∧ e.mem.planBase = base ∧ e.downlink.rate = straps.linkRate ∧
    e.remote.enabled = straps.remoteEn

/-! ### The memory path -/

/-- HEAD_SIDE_REQUEST: the port holds a request as it came, whatever its address (R1); that a request sent while the port
holds one changes nothing is the model's choice (log 30). PARKED_ASSERT and PARKED_WITHDRAW set the level of the memory's
signal and nothing else (R13); that they do so under RESET too is the model's reading (log 17). -/
def Obligations.HeadSideAndParked : Prop :=
  ∀ (d : Dev) (q : List Instr) (ident : Nat) (op : BusOp),
    (d.resetAsserted = false → d.mem.transit = none → exec (.headSideRequest ident op) ⟨d, q⟩ =
      .next ⟨{ d with mem := { d.mem with transit := some ⟨ident, op⟩ } }, q⟩) ∧
    (∀ r, d.mem.transit = some r → exec (.headSideRequest ident op) ⟨d, q⟩ = .next ⟨d, q⟩) ∧
    exec .parkedAssert ⟨d, q⟩ = .next ⟨{ d with mem := { d.mem with parked := true } }, q⟩ ∧
    exec .parkedWithdraw ⟨d, q⟩ = .next ⟨{ d with mem := { d.mem with parked := false } }, q⟩

/-- GRANT_DECISION gives the port to the request in transit, unchanged, with a new tag and an in-flight record, while no
inserted request waits (steal counter 0 afterwards) or the counter is below 16 (one more afterwards). A read is not
classified; a write that no region holds and that no plan tracks changes nothing else. No grant is made while the memory is
parked, while 64 requests are in flight, while nothing waits, or, while the port is held, for any party but the write of the
MASK-WRITE; that write is granted whatever waits and whatever the steal counter, and its grant frees the port
(R2, R3, R5, R11, R12, R13). -/
def Obligations.PassingGrantsAndNoGrant : Prop :=
  (∀ (d : Dev) (q : List Instr) (ident : Nat) (a : Addr) (n : Nat) (bytes : List Byte),
    d.mayGrant = true → d.mem.portHeld = false → (d.inserted = none ∨ d.mem.steal < 16) →
    let steal := if d.inserted = none then 0 else d.mem.steal + 1
    (d.mem.transit = some ⟨ident, .read a n⟩ → exec .grantDecision ⟨d, q⟩ = .next ⟨{ d with mem := { d.mem with
      transit := none
      steal := steal
      inflight := d.mem.inflight ++
        [{ tag := d.mem.nextTag, owner := .passing ident, isWrite := false, len := n, handle := [] }]
      nextTag := d.mem.nextTag + 1
      memOut := some ⟨d.mem.nextTag, .read a n⟩ } }, q⟩) ∧
    (d.mem.transit = some ⟨ident, .write a bytes⟩ → d.plan.working = none →
      (∀ i, i < bytes.length → a.toNat + i < d.mem.planAddr ∨ d.mem.planAddr + 65536 ≤ a.toNat + i) →
      (∀ w ∈ d.watch.windows, a.toNat + bytes.length ≤ w.1 ∨ w.2 ≤ a.toNat) →
      exec .grantDecision ⟨d, q⟩ = .next ⟨{ d with mem := { d.mem with
        transit := none
        steal := steal
        inflight := d.mem.inflight ++ [{ tag := d.mem.nextTag, owner := .passing ident, isWrite := true
                                         len := bytes.length, handle := [] }]
        nextTag := d.mem.nextTag + 1
        memOut := some ⟨d.mem.nextTag, .write a bytes⟩ } }, q⟩)) ∧
  ∀ (d : Dev) (q : List Instr),
    (d.mem.transit = none → d.inserted = none → exec .grantDecision ⟨d, q⟩ = .next ⟨d, q⟩) ∧
    (d.mem.parked = true ∨ 64 ≤ d.mem.inflight.length → exec .grantDecision ⟨d, q⟩ = .next ⟨d, q⟩) ∧
    (d.mem.portHeld = true → (∀ op, d.remote.req ≠ some ⟨.maskWrite, op⟩) →
      exec .grantDecision ⟨d, q⟩ = .next ⟨d, q⟩) ∧
    (∀ (a : Addr) (bytes : List Byte), d.mayGrant = true → d.mem.portHeld = true →
      d.remote.req = some ⟨.maskWrite, .write a bytes⟩ → ∃ t, exec .grantDecision ⟨d, q⟩ = .next ⟨t, q⟩ ∧
        t.mem.portHeld = false ∧ t.mem.steal = 0 ∧ t.mem.memOut = some ⟨d.mem.nextTag, .write a bytes⟩ ∧
        t.remote.req = none ∧ t.mem.transit = d.mem.transit)

/-- GRANT_DECISION gives the port to an inserted request when no passing request waits or the steal counter stands at 16:
live fetch before all others, then a read of the remote access unit, then of the two of rank 3 the one not granted last,
then replay fetch; the counter becomes 0. A reader presents its next request at the grant; the grant of a MASK-WRITE's read,
and of no other read, holds the port; the grant of a seed read opens the seeding record; the bytes of a drain write leave
the FIFO. The report writer: after a grant a wanted producer word is presented before the next half of the record; the
record is written from its snapshot, 0x2000 first, then 0x2100; with the grant of the second half the writing ends, and a
record that fell due meanwhile is snapshotted then, with the next number (R10, R11, R12, R34, R35, R122, R182, R189). -/
def Obligations.GrantOfInsertedRequests : Prop :=
  ∀ (d : Dev) (q : List Instr) (i : BufId) (r : FetchReq) (a : Addr) (n p : Nat),
    d.mayGrant = true → d.mem.portHeld = false → (d.mem.transit = none ∨ d.mem.steal = 16) →
    let put (owner : Owner) (op : BusOp) (isWrite : Bool) (len : Nat) (m : MemPath) : MemPath := { m with
      steal := 0
      inflight := m.inflight ++ [{ tag := m.nextTag, owner := owner, isWrite := isWrite, len := len, handle := [] }]
      nextTag := m.nextTag + 1
      memOut := some ⟨m.nextTag, op⟩ }
    let written (off : Nat) (bytes : List Byte) : MemPath :=
      { put .report (.write (BitVec.ofNat 34 (d.mem.planAddr + off)) bytes) true bytes.length d.mem with
        lastRank3 := .report }
    let reports : Prop := d.live.fetcher.req = none ∧ d.remote.req = none ∧
      ((∀ p n, d.feed.drain ≠ .presented p n) ∨ d.mem.lastRank3 = .feed)
    let wanted := d.report.producerWanted
    (d.live.fetcher.req = some (i, r) → exec .grantDecision ⟨d, q⟩ = .next ⟨{ d with
      mem := put (.fetch .live i r) (.read (BitVec.ofNat 34 r.addr) r.len) false r.len d.mem
      live := { d.live with fetcher := Fetcher.presentNext { d.live.fetcher.setBuf i { d.live.fetcher.buf i with
        outstanding := (d.live.fetcher.buf i).outstanding + 1 } with req := none } i } }, q⟩) ∧
    (∀ use, d.live.fetcher.req = none → (use = .read ∨ use = .maskRead) → d.remote.req = some ⟨use, .read a n⟩ →
      exec .grantDecision ⟨d, q⟩ = .next ⟨{ d with
        mem := { put (.remote use) (.read a n) false n d.mem with portHeld := use = .maskRead }
        remote := { d.remote with req := none } }, q⟩) ∧
    (∀ kind tag id w k mode, d.live.fetcher.req = none → d.remote.req = some ⟨.seed, .read a n⟩ →
      d.uplink.executor = .executing kind tag (.watchSet id w k mode) → exec .grantDecision ⟨d, q⟩ = .next ⟨{ d with
        mem := put (.remote .seed) (.read a n) false n d.mem
        remote := { d.remote with req := none }
        watch := { d.watch with seeding := some { id := id, addr := w, len := k, mode := mode
                                                  known := List.replicate k none, hits := 0, hitTime := none } } }, q⟩) ∧
    (d.live.fetcher.req = none → d.remote.req = none → d.feed.drain = .presented p n →
      (d.report.presented = none ∨ d.mem.lastRank3 = .report) → exec .grantDecision ⟨d, q⟩ = .next ⟨{ d with
      mem := { put .feed (.write (BitVec.ofNat 34 p) (d.feed.fifo.take n)) true (d.feed.fifo.take n).length d.mem with
        lastRank3 := .feed }
      feed := { d.feed with fifo := d.feed.fifo.drop n, drain := .granted n false } }, q⟩) ∧
    (∀ v, reports → d.report.presented = some .producerWord → d.report.producer = some v → wanted = false →
      d.report.writing = none → exec .grantDecision ⟨d, q⟩ = .next ⟨{ d with
        mem := written 0x2200 (leBytes 8 v), report := { d.report with presented := none } }, q⟩) ∧
    (∀ v rec_, reports → d.report.presented = some .producerWord → d.report.producer = some v → wanted = false →
      d.report.writing = some rec_ → (d.report.halvesLeft = 1 ∨ d.report.halvesLeft = 2) →
      exec .grantDecision ⟨d, q⟩ = .next ⟨{ d with
        mem := written 0x2200 (leBytes 8 v)
        report := { d.report with
          presented := some (if d.report.halvesLeft = 2 then .firstHalf else .secondHalf)
          halvesLeft := d.report.halvesLeft - 1 } }, q⟩) ∧
    (∀ rec_, reports → d.report.presented = some .firstHalf → d.report.writing = some rec_ → d.report.halvesLeft = 1 →
      exec .grantDecision ⟨d, q⟩ = .next ⟨{ d with
        mem := written 0x2000 (rec_.half false)
        report := { d.report with
          presented := some (if wanted then .producerWord else .secondHalf)
          halvesLeft := if wanted then 1 else 0
          producerWanted := false } }, q⟩) ∧
    (∀ rec_, reports → d.report.presented = some .secondHalf → d.report.writing = some rec_ →
      d.report.recordDue = false → exec .grantDecision ⟨d, q⟩ = .next ⟨{ d with
        mem := written 0x2100 (rec_.half true)
        report := { d.report with
          presented := if wanted then some .producerWord else none
          writing := none
          producerWanted := false } }, q⟩) ∧
    (∀ rec_, reports → d.report.presented = some .secondHalf → d.report.writing = some rec_ →
      d.report.recordDue = true → exec .grantDecision ⟨d, q⟩ = .next ⟨{ d with
        mem := written 0x2100 (rec_.half true)
        report := { d.report with
          presented := some (if wanted then .producerWord else .firstHalf)
          halvesLeft := if wanted then 2 else 1
          producerWanted := false
          recordNumber := d.report.recordNumber + 1
          writing := some (d.snapshot (d.report.recordNumber + 1))
          recordDue := false } }, q⟩) ∧
    (d.live.fetcher.req = none → d.remote.req = none → d.report.presented = none →
      (∀ p n, d.feed.drain ≠ .presented p n) → d.replay.fetcher.req = some (i, r) → exec .grantDecision ⟨d, q⟩ =
      .next ⟨{ d with
      mem := put (.fetch .replay i r) (.read (BitVec.ofNat 34 r.addr) r.len) false r.len d.mem
      replay := { d.replay with fetcher := Fetcher.presentNext { d.replay.fetcher.setBuf i { d.replay.fetcher.buf i with
        outstanding := (d.replay.fetcher.buf i).outstanding + 1 } with req := none } i } }, q⟩)

/-- A write is cut at every region boundary strictly inside it, and only there: the pieces, in order, are the write's bytes
at rising, adjoining addresses, none of them empty (R5). The regions are those of the model: section 1.2's, and the parts of
the plan region, at whose ends section 1.5 cuts (log 14). -/
def Obligations.PiecesOfAWrite : Prop :=
  ∀ (d : Dev) (a : Nat) (bytes : List Byte),
    ((d.pieces a bytes).flatMap fun x => x.2) = bytes ∧
    (∀ x ∈ d.pieces a bytes, x.2 ≠ []) ∧
    (∀ (l r : List (Nat × List Byte)) (x : Nat × List Byte), d.pieces a bytes = l ++ x :: r →
      x.1 = a + (l.flatMap fun y => y.2).length) ∧
    (∀ k, a < k → k < a + bytes.length →
      (isBoundary d.regions k = true ↔ ∃ x ∈ d.pieces a bytes, x.1 = k))

/-- What a granted write is handed to, for the head side's write in transit, for a remote WRITE, and for the write of the
MASK-WRITE that holds the port, whose grant frees the port, alike. In no region:
nothing more happens. Inside one part of the plan region: its bytes go to the plan unit at their offset, as a
STAGING_WRITE of them; across the end of the staging area (a cut of the model's, log 14) the two pieces go one after the
other. On one watched range: one hit, with the whole write; on the range of the seeding record: its known bytes, its hits
and its hit time. In one tile row, or over the end of a row into the next: its tracker pieces in ascending address order,
and a tracking handle of one entry with the rows touched and the binding in force (R4, R5, R6, R8, R12, R18, R29, R45, R46,
R182, R184). -/
def Obligations.ClassifiedWritesAreHandedOn : Prop :=
  ∀ (d : Dev) (q : List Instr) (ident : Nat) (a : Addr) (bytes : List Byte) (granted : List HandleEntry → Dev),
    d.mayGrant = true → bytes ≠ [] →
    let n := bytes.length
    let put (owner : Owner) (steal : Nat) (h : List HandleEntry) : MemPath := { d.mem with
      steal := steal
      inflight := d.mem.inflight ++ [{ tag := d.mem.nextTag, owner := owner, isWrite := true, len := n, handle := h }]
      nextTag := d.mem.nextTag + 1
      memOut := some ⟨d.mem.nextTag, .write a bytes⟩ }
    ((d.mem.portHeld = false ∧ d.mem.transit = some ⟨ident, .write a bytes⟩ ∧ (d.inserted = none ∨ d.mem.steal < 16) ∧
        ∀ h, granted h = { d with mem := { put (.passing ident) (if d.inserted = none then 0 else d.mem.steal + 1) h with
          transit := none } }) ∨
      (d.mem.portHeld = false ∧ (d.mem.transit = none ∨ d.mem.steal = 16) ∧ d.live.fetcher.req = none ∧
        d.remote.req = some ⟨.write, .write a bytes⟩ ∧
        ∀ h, granted h = { d with mem := put (.remote .write) 0 h, remote := { d.remote with req := none } }) ∨
      (d.mem.portHeld = true ∧ d.remote.req = some ⟨.maskWrite, .write a bytes⟩ ∧
        ∀ h, granted h = { d with
          mem := { put (.remote .maskWrite) 0 h with portHeld := false }, remote := { d.remote with req := none } })) →
    let run := exec .grantDecision ⟨d, q⟩
    let base := d.mem.planAddr
    let apart (b e : Nat) : Prop := a.toNat + n ≤ b ∨ e ≤ a.toNat
    let offPlan := apart base (base + 65536)
    let offRing := ∀ w, d.plan.working = some w → apart w.plan.ringBase (w.plan.ringBase + w.plan.slots * w.plan.stride)
    let unwatched (id : Option Nat) : Prop := ∀ j e, d.watch.entry j = some e → some j ≠ id → apart e.addr (e.addr + e.len)
    let unseeded := ∀ s, d.watch.seeding = some s → apart s.addr (s.addr + s.len)
    (offPlan → offRing → unwatched none → unseeded → run = .next ⟨granted [], q⟩) ∧
    (∀ k, a.toNat = base + k → offRing → unwatched none → unseeded →
      (∀ b ∈ [0x1000, 0x1100, 0x2000, 0x2400, 65536], k < b → k + n ≤ b) → k < 65536 →
      run = exec (.stagingWrite (BitVec.ofNat 16 k) bytes) ⟨granted [], q⟩) ∧
    (∀ k, a.toNat = base + k → offRing → unwatched none → unseeded → k < 0x1000 → 0x1000 < k + n → k + n ≤ 0x1100 →
      run = match exec (.stagingWrite (BitVec.ofNat 16 k) (bytes.take (0x1000 - k))) ⟨granted [], q⟩ with
        | .next t => exec (.stagingWrite 0x1000 (bytes.drop (0x1000 - k))) t
        | x => x) ∧
    (∀ id e, d.watch.entry id = some e → offPlan → offRing → unwatched (some id) → unseeded → 1 ≤ e.len →
      a.toNat < e.addr + e.len → e.addr < a.toNat + n → run = .next ⟨(granted []).watchHit id a.toNat bytes, q⟩) ∧
    (∀ s, d.watch.seeding = some s → offPlan → offRing → unwatched none → s.known.length = s.len → 1 ≤ s.len →
      a.toNat < s.addr + s.len → s.addr < a.toNat + n → run = .next ⟨{ granted [] with watch := { d.watch with
        seeding := some { s with
          known := (List.range s.len).map fun k => if a.toNat ≤ s.addr + k ∧ s.addr + k < a.toNat + n
            then some (bytes.getD (s.addr + k - a.toNat) 0) else s.known.getD k none
          hits := s.hits + 1
          hitTime := some d.timing.now } } }, q⟩) ∧
    (∀ (w : WorkingPlan) (l : Loc) (b : Option Nat), d.plan.working = some w → offPlan → unwatched none → unseeded → d.Binds l.slot b →
      ((∀ j, j < n → w.plan.locate (a.toNat + j) = some { l with byte := l.byte + j }) →
        run = .next ⟨(granted [⟨l.slot, b, l.tile, l.row, l.row⟩]).trackerPiece w.plan d.timing.now
          ⟨l.slot, l.tile, l.row, l.byte, l.byte + n⟩, q⟩) ∧
      (∀ k m, 1 ≤ k → k ≤ m → m < n → (∀ j, j < k → w.plan.locate (a.toNat + j) = some { l with byte := l.byte + j }) →
        (∀ j, k ≤ j → j < m → w.plan.locate (a.toNat + j) = none) →
        (∀ j, m ≤ j → j < n → w.plan.locate (a.toNat + j) = some { l with row := l.row + 1, byte := j - m }) →
        run = .next ⟨Dev.trackerPiece w.plan d.timing.now ⟨l.slot, l.tile, l.row + 1, 0, n - m⟩
          ((granted [⟨l.slot, b, l.tile, l.row, l.row + 1⟩]).trackerPiece w.plan d.timing.now
            ⟨l.slot, l.tile, l.row, l.byte, l.byte + k⟩), q⟩))

/-- MEMORY_RESPONSE of a passing request: the record goes, and the response returns to the head side unchanged with the
fabric's identification; an error also counts, sets no attention cause, and adds the rows of the tracking handle to the
damage lists of the tiles whose binding is still in force, and to no other (R3, R9, R14, R64). A response without a record
is discarded (R17). A response that is no answer to its request (data for a write, completion for a read, another number of
bytes) stops the model: section 1.1 gives the memory no such response and the part no behaviour for one; that stop is the
model's choice (log 18). -/
def Obligations.MemoryResponses : Prop :=
  ∀ (d : Dev) (q : List Instr) (tag : Nat) (reply : MemReply) (r : InFlight) (ident : Nat), d.resetAsserted = false →
    (d.mem.record tag = none → exec (.memoryResponse tag reply) ⟨d, q⟩ = .next ⟨d, q⟩) ∧
    (d.mem.record tag = some r → r.owner = .passing ident → r.fits reply = true →
      exec (.memoryResponse tag reply) ⟨d, q⟩ = .next ⟨{ d with
        counters := if reply = .error then { d.counters with memoryErrors := satInc d.counters.memoryErrors }
          else d.counters
        ring := { d.ring with slots := if reply = .error then d.handleDamage r.handle else d.ring.slots }
        mem := { d.mem with inflight := d.mem.inflight.filter fun x => x.tag ≠ tag
                            headOut := some ⟨ident, reply⟩ } }, q⟩) ∧
    (d.mem.record tag = some r → r.fits reply = false →
      exec (.memoryResponse tag reply) ⟨d, q⟩ = .fault .malformedReply)

/-! ### The plan unit and the report writer -/

/-- STAGING_WRITE puts a piece's bytes in the shadow at their offsets and, where it does not cover the commit word's first
byte, changes nothing else; a piece that covers it is then the COMMIT of the word as the shadow holds it, be the word
covered whole or in part. A piece across the end of the staging area (a write is cut there, log 14, so only the command
hands one on) is its two parts, one after the other. In the live
words the bytes of a piece join the live-word copy; a word whose first byte the piece covers is then taken with its value
read from the copy, the bytes not covered from earlier writes; a piece that covers no first byte takes nothing; one that
covers both takes ATTENTION-ACK first. A piece beyond the live words is not taken at all. A piece that ends with the commit
word fills the shadow before it and is then the COMMIT of that word; one that is a live word is the ATTENTION_ACK or the
RETURN_CONSUMED of its value (R6, R18, R19, R29, R30, R31). -/
def Obligations.StagingWriteFillsShadow : Prop :=
  ∀ (d : Dev) (q : List Instr) (off : BitVec 16) (bytes : List Byte), d.resetAsserted = false →
    let run := exec (.stagingWrite off bytes) ⟨d, q⟩
    let stop := off.toNat + bytes.length
    let then_ (x : Host.Outcome State Fault Refusal) (c : Instr) : Host.Outcome State Fault Refusal := match x with
      | .next t => exec c t
      | x => x
    (d.plan.shadow.wf = true → stop ≤ 0x1000 → ∃ m : Memory, m.wf = true ∧
      (∀ a, m.read a = if off.toNat ≤ a ∧ a < stop then bytes.getD (a - off.toNat) 0 else d.plan.shadow.read a) ∧
      let filled : State := ⟨{ d with plan := { d.plan with shadow := m } }, q⟩
      (0x0FFC < off.toNat ∨ stop ≤ 0x0FFC → run = .next filled) ∧
      (off.toNat ≤ 0x0FFC → 0x0FFC < stop → run = exec (.commit (BitVec.ofNat 32 (m.readNat 0x0FFC 4))) filled)) ∧
    (off.toNat < 0x1000 → 0x1000 < stop →
      run = then_ (exec (.stagingWrite off (bytes.take (0x1000 - off.toNat))) ⟨d, q⟩)
        (.stagingWrite 0x1000 (bytes.drop (0x1000 - off.toNat)))) ∧
    (d.plan.live.wf = true → 0x1000 ≤ off.toNat → ∃ m : Memory, m.wf = true ∧
      (∀ a, m.read a = if (off.toNat ≤ a ∧ a < stop) ∧ ((0x1000 ≤ a ∧ a < 0x1004) ∨ (0x1008 ≤ a ∧ a < 0x1010))
        then bytes.getD (a - off.toNat) 0 else d.plan.live.read a) ∧
      let copied : State := ⟨{ d with plan := { d.plan with live := m } }, q⟩
      let ack := exec (.attentionAck (BitVec.ofNat 32 (m.readNat 0x1000 4))) copied
      let consumed := Instr.returnConsumed (BitVec.ofNat 64 (m.readNat 0x1008 8))
      let first : Prop := off.toNat = 0x1000 ∧ bytes ≠ []
      let second : Prop := off.toNat ≤ 0x1008 ∧ 0x1008 < stop
      (¬first → ¬second → run = .next copied) ∧ (first → ¬second → run = ack) ∧
      (¬first → second → run = exec consumed copied) ∧ (first → second → run = then_ ack consumed)) ∧
    (0x1010 ≤ off.toNat → run = .next ⟨d, q⟩) ∧
    (∀ word : BitVec 32, stop = 0x0FFC →
      exec (.stagingWrite off (bytes ++ leBytes 4 word.toNat)) ⟨d, q⟩ = then_ run (.commit word)) ∧
    (∀ v : BitVec 32, exec (.stagingWrite 0x1000 (leBytes 4 v.toNat)) ⟨d, q⟩ = exec (.attentionAck v) ⟨d, q⟩) ∧
    ∀ v : BitVec 64, exec (.stagingWrite 0x1008 (leBytes 8 v.toNat)) ⟨d, q⟩ = exec (.returnConsumed v) ⟨d, q⟩

/-- Validation: the checks of the eight groups in their order RING, SLOTS, SPEED, PERIOD, FORMAT, STRIPS, TILES, RETURN; the
first group with a failing check is the reason, whatever the later ones hold, and a snapshot that passes all is valid
(R20, R21, R22, R41, R42, R43). Where R199's and R194's text puts an address of exactly 2^34 under another reading than the
sums of R20 and R22, the model follows R20 and R22: its own choice (logs 39 and 40). -/
def Obligations.ValidationOrder : Prop :=
  ∀ (g : Staged) (planAddr mem : Nat), g.strips.length = min 4 g.stripCount → g.tiles.length = min 8 g.tileCount →
    let ringEnd := g.ringBase + g.slots * g.stride
    let apart (a b c e : Nat) : Prop := ∀ x, ¬((a ≤ x ∧ x < b) ∧ c ≤ x ∧ x < e)
    let width (t : Tile) := t.cols - t.trimLeft - t.trimRight
    let stop (t : Tile) := t.offset + (t.lead + (g.strips[t.strip]?.map (·.height)).getD 0) * t.pitch
    let ring : Prop := g.ringBase % 4096 = 0 ∧ g.stride % 4096 = 0 ∧ g.stride ≠ 0 ∧ g.stride ≤ 268435456 ∧ ringEnd ≤ mem ∧
      apart g.ringBase ringEnd planAddr (planAddr + 65536)
    let slots : Prop := 4 ≤ g.slots ∧ g.slots ≤ 32
    let speed : Prop := g.speed = 1 ∨ g.speed = 2 ∨ g.speed = 3 ∨ g.speed = 4 ∨ g.speed = 6 ∨ g.speed = 8
    let period : Prop := 1000000 ≤ g.period ∧ g.period ≤ 8000000
    let format : Prop := (64 ≤ g.width ∧ g.width ≤ 8192) ∧ (16 ≤ g.height ∧ g.height ≤ 4352) ∧ (1 ≤ g.bpp ∧ g.bpp ≤ 4) ∧
      g.conceal ≤ 2 ∧ g.order ≤ 1 ∧ g.source ≤ 1
    let strips : Prop := (1 ≤ g.stripCount ∧ g.stripCount ≤ 4) ∧ (∀ s ∈ g.strips, 1 ≤ s.height) ∧
      (∀ i s, g.strips[i]? = some s → s.first = ((g.strips.take i).map (·.height)).sum) ∧
      (g.strips.map (·.height)).sum = g.height
    let tiles : Prop := (1 ≤ g.tileCount ∧ g.tileCount ≤ 8) ∧
      (∀ t ∈ g.tiles, t.strip < g.stripCount ∧ t.offset % 64 = 0 ∧ t.pitch % 64 = 0 ∧ t.cols * g.bpp ≤ t.pitch ∧
        t.pitch ≤ 65536 ∧ (1 ≤ t.cols ∧ t.cols ≤ 8192) ∧ t.lead ≤ 64 ∧ t.trimLeft + t.trimRight < t.cols ∧
        stop t ≤ g.stride) ∧
      (∀ σ, σ < g.stripCount → 1 ≤ (g.tiles.filter (·.strip = σ)).length ∧ (g.tiles.filter (·.strip = σ)).length ≤ 4 ∧
        ∀ x, x < g.width ↔ ∃ t ∈ g.tiles, t.strip = σ ∧ t.x ≤ x ∧ x < t.x + width t) ∧
      g.tiles.Pairwise (fun t u => (t.strip = u.strip → t.x + width t ≤ u.x ∨ u.x + width u ≤ t.x) ∧
        (stop t ≤ u.offset ∨ stop u ≤ t.offset))
    let ret : Prop := (g.retStart = 0 ∧ g.retEnd = 0) ∨ (g.retStart % 64 = 0 ∧ g.retEnd % 64 = 0 ∧ g.retStart < g.retEnd ∧
      (4096 ≤ g.retEnd - g.retStart ∧ g.retEnd - g.retStart ≤ 67108864) ∧ g.retEnd ≤ mem ∧
      apart g.retStart g.retEnd planAddr (planAddr + 65536) ∧ apart g.retStart g.retEnd g.ringBase ringEnd)
    let fails (r : Group) : Prop := g.failure planAddr mem = some r
    (fails .ring ↔ ¬ring) ∧
    (fails .slots ↔ ring ∧ ¬slots) ∧
    (fails .speed ↔ ring ∧ slots ∧ ¬speed) ∧
    (fails .period ↔ ring ∧ slots ∧ speed ∧ ¬period) ∧
    (fails .format ↔ ring ∧ slots ∧ speed ∧ period ∧ ¬format) ∧
    (fails .strips ↔ ring ∧ slots ∧ speed ∧ period ∧ format ∧ ¬strips) ∧
    (fails .tiles ↔ ring ∧ slots ∧ speed ∧ period ∧ format ∧ strips ∧ ¬tiles) ∧
    (fails .ret ↔ ring ∧ slots ∧ speed ∧ period ∧ format ∧ strips ∧ tiles ∧ ¬ret) ∧
    (g.failure planAddr mem = none ↔ ring ∧ slots ∧ speed ∧ period ∧ format ∧ strips ∧ tiles ∧ ret)

/-- COMMIT of a snapshot that fails validation: the first failing group is the reason, the pending and the working plan
stay, the counter moves, and COMMIT is set; where COMMIT was set before, no record falls due, and where it was clear and no
record is being written, a record with the cause set is started (R19, R20, R24, R33, R34). -/
def Obligations.CommitIsRejected : Prop :=
  ∀ (d : Dev) (q : List Instr) (word : BitVec 32) (reason : Group), d.resetAsserted = false → d.plan.shadow.wf = true →
    let m := Memory.writeIn 0 0x1000 d.plan.shadow 0x0FFC (leBytes 4 word.toNat)
    let e := { d with
      plan := { d.plan with shadow := m, last := .rejected (word.truncate 16) reason }
      counters := { d.counters with rejectedCommits := satInc d.counters.rejectedCommits } }
    m.staged.failure d.mem.planAddr (MemSize.bytes d.mem.memSize) = some reason →
    (d.report.causes.commit = true → exec (.commit word) ⟨d, q⟩ = .next ⟨e, q⟩) ∧
    (d.report.causes.commit = false → d.report.writing = none → ∃ r,
      exec (.commit word) ⟨d, q⟩ = .next ⟨{ e with report := r }, q⟩ ∧
      r.causes = { d.report.causes with commit := true } ∧ r.recordNumber = d.report.recordNumber + 1 ∧
      r.writing = some { e.snapshot r.recordNumber with causes := r.causes }) ∧
    (d.report.causes.commit = false → d.report.writing ≠ none →
      exec (.commit word) ⟨d, q⟩ = .next ⟨{ e with report := { d.report with
        causes := { d.report.causes with commit := true }, recordDue := true } }, q⟩)

/-- COMMIT of a valid snapshot: the plan, clamped, with its sequence and the commit's head time, becomes the pending plan
(replacing one that waits) while a plan works; without one it is applied at once, the first anchor one period later, with
every slot EMPTY, both contexts free, and the plan's return ring in force (R19, R23, R25, R27, R115, R193). -/
def Obligations.CommitIsAccepted : Prop :=
  ∀ (d : Dev) (q : List Instr) (word : BitVec 32), d.resetAsserted = false → d.plan.shadow.wf = true →
    let m := Memory.writeIn 0 0x1000 d.plan.shadow 0x0FFC (leBytes 4 word.toNat)
    let g := m.staged.toPlan
    let p := { g with
      advance := if g.period ≤ g.advance then g.period - 1 else g.advance
      lockWindow := if g.lockWindow = 0 then 1 else if 4095 < g.lockWindow then 4095 else g.lockWindow
      rowCount := if g.rowCount = 0 then 1 else g.rowCount
      startAllowance := if g.startAllowance = 0 then g.period / g.speed else g.startAllowance }
    m.staged.failure d.mem.planAddr (MemSize.bytes d.mem.memSize) = none →
    (d.plan.working ≠ none → exec (.commit word) ⟨d, q⟩ = .next ⟨{ d with plan := { d.plan with
      shadow := m
      pending := some ⟨p, word.truncate 16, d.timing.now⟩
      last := .accepted (word.truncate 16) { advance := g.period ≤ g.advance
                                             lockWindow := g.lockWindow = 0 || 4095 < g.lockWindow
                                             rowCount := g.rowCount = 0
                                             startAllowance := g.startAllowance = 0 } } }, q⟩) ∧
    (d.plan.working = none → ∃ t, exec (.commit word) ⟨d, q⟩ = .next ⟨t, q⟩ ∧
      t.plan.working = some ⟨p, word.truncate 16⟩ ∧ t.plan.pending = none ∧ t.plan.state = .active ∧
      t.timing = { d.timing with nextAnchor := some (d.timing.now + BitVec.ofNat 32 p.period), inGroup := [] } ∧
      t.ring = { d.ring with slots := d.ring.slots.map (fun _ => Slot.vacant), age := [], holdCount := 0 } ∧
      t.tracker = { d.tracker with ctx0 := none, ctx1 := none, order := [] } ∧
      t.feed.start = p.retStart ∧ t.feed.stop = p.retEnd ∧ t.live.active = none ∧ t.live.waiting = none ∧
      t.replay.credit = d.replay.credit ∧ t.mem = d.mem ∧ t.watch = d.watch ∧ t.remote = d.remote ∧
      t.uplink = d.uplink)

/-- ATTENTION_ACK clears the causes it names, leaves the others, and causes no record; the word joins the live-word copy.
RETURN_CONSUMED: a value in the ring in force and not ahead of P by more than the occupancy becomes C, after which a drain
write begins if one may; any other value is refused and counted, and with no ring every value is
(R29, R30, R31, R189, R191, R200). -/
def Obligations.LiveWordsAreTaken : Prop :=
  (∀ (d : Dev) (q : List Instr) (v : BitVec 32), d.resetAsserted = false → d.plan.live.wf = true →
    exec (.attentionAck v) ⟨d, q⟩ = .next ⟨{ d with
      plan := { d.plan with live := Memory.writeIn 0x1000 0x1004 d.plan.live 0x1000 (leBytes 4 v.toNat) }
      report := { d.report with causes :=
        { strap := d.report.causes.strap && !v.getLsbD 0, commit := d.report.causes.commit && !v.getLsbD 1
          link := d.report.causes.link && !v.getLsbD 2, genlock := d.report.causes.genlock && !v.getLsbD 3
          fault := d.report.causes.fault && !v.getLsbD 4 } } }, q⟩) ∧
  ∀ (d : Dev) (q : List Instr) (v : BitVec 64), d.resetAsserted = false → d.plan.live.wf = true →
    let size := d.feed.stop - d.feed.start
    let live := Memory.writeIn 0x1008 0x1010 d.plan.live 0x1008 (leBytes 8 v.toNat)
    let inRing := d.feed.start ≤ v.toNat ∧ v.toNat < d.feed.stop
    let behind := (d.feed.producer + size - v.toNat) % size ≤ (d.feed.producer + size - d.feed.consumer) % size
    let e := { d with plan := { d.plan with live := live }, feed := { d.feed with consumer := v.toNat } }
    (inRing → behind → exec (.returnConsumed v) ⟨d, q⟩ = .next ⟨e.thenDo .drainWriteBegin, q⟩ ∧
      (d.feed.fifo = [] ∨ d.feed.drain ≠ .none → e.thenDo .drainWriteBegin = e)) ∧
    (¬(inRing ∧ behind) → exec (.returnConsumed v) ⟨d, q⟩ = .next ⟨{ d with
        plan := { d.plan with live := live }
        counters := { d.counters with refusedConsumers := satInc d.counters.refusedConsumers } }, q⟩)

/-- REPORT_TIMER, while UNPLANNED and when it has expired: the next expiry is 2,097,152 ticks on, and a record falls due:
a snapshot is taken and numbered, or, while one is being written, the record-due flag is set (R33, R34). Under a plan, or
before its time, the timer does nothing (that a command not due does nothing is log 4). REPORT_WRITE_DONE: a completion only
removes the in-flight record; an error counts and sets FAULT, which makes a record due if it was clear; the write is not
repeated (R14, R32, R33, R36). -/
def Obligations.ReportTimerAndWrites : Prop :=
  ∀ (d : Dev) (q : List Instr), d.resetAsserted = false →
    (d.plan.working = none → reached d.timing.now d.report.timerDue = true → d.report.writing = none → ∃ r,
      exec .reportTimer ⟨d, q⟩ = .next ⟨{ d with report := r }, q⟩ ∧ r.timerDue = d.report.timerDue + 2097152 ∧
      r.recordNumber = d.report.recordNumber + 1 ∧ r.writing = some (d.snapshot r.recordNumber) ∧
      r.recordDue = d.report.recordDue ∧ r.causes = d.report.causes) ∧
    (d.plan.working = none → reached d.timing.now d.report.timerDue = true → d.report.writing ≠ none →
      exec .reportTimer ⟨d, q⟩ = .next ⟨{ d with report := { d.report with
        timerDue := d.report.timerDue + 2097152, recordDue := true } }, q⟩) ∧
    (d.plan.working ≠ none ∨ reached d.timing.now d.report.timerDue = false →
      exec .reportTimer ⟨d, q⟩ = .next ⟨d, q⟩) ∧
    ∀ (tag : Nat) (r : InFlight), d.mem.record tag = some r → r.owner = .report → r.isWrite = true → r.handle = [] →
      let e := { d with mem := { d.mem with inflight := d.mem.inflight.filter fun x => x.tag ≠ tag } }
      let e' := { e with counters := { d.counters with memoryErrors := satInc d.counters.memoryErrors } }
      exec (.reportWriteDone tag .done) ⟨d, q⟩ = .next ⟨e, q⟩ ∧
      ∃ rep, exec (.reportWriteDone tag .error) ⟨d, q⟩ = .next ⟨{ e' with report := rep }, q⟩ ∧
        Report.CauseSet .fault d.report rep

/-! ### Timing and genlock -/

/-- ECHO_TIMER, when it has expired: an outstanding echo is abandoned and counted, the sequence moves on, and an ECHO with
it is offered; admitted (9 entries free) it is outstanding, refused it is dropped and counted. HEAD_STATUS_TIMER, while
UNPLANNED and when it has expired: the next offer is 2,097,152 ticks on, and a HEAD-STATUS of the TIMER occasion is offered
with the state as it stands; then a RETURN-DROP if returns were dropped, which clears the count when admitted.
FRAME_START_END: 148 ticks after the last frame start issued the line returns low, and the slot and phase lines keep their
values (R86, R102, R118, R154, R192). That each of the three does nothing before its time is the model's choice (log 4). -/
def Obligations.TimersExpire : Prop :=
  (∀ (d : Dev) (q : List Instr), d.resetAsserted = false → reached d.timing.now d.timing.echoDue = true →
    let c := if d.timing.echoOut then { d.counters with abandonedEchoes := satInc d.counters.abandonedEchoes }
      else d.counters
    let t := { d.timing with echoSeq := d.timing.echoSeq + 1, echoDue := d.timing.echoDue + 2097152 }
    (d.downlink.ctrl.length ≤ 55 → exec .echoTimer ⟨d, q⟩ = .next ⟨{ d with
      counters := c
      timing := { t with echoOut := true }
      downlink := { d.downlink with ctrl := d.downlink.ctrl ++ [.echo (d.timing.echoSeq + 1) 0] } }, q⟩) ∧
    (55 < d.downlink.ctrl.length → exec .echoTimer ⟨d, q⟩ = .next ⟨{ d with
      counters := { c with droppedEntries := satInc c.droppedEntries }
      timing := { t with echoOut := false } }, q⟩)) ∧
  (∀ (d : Dev) (q : List Instr), d.resetAsserted = false → d.plan.working = none →
    reached d.timing.now d.timing.statusDue = true →
    let t := { d.timing with statusDue := d.timing.statusDue + 2097152 }
    let e := Entry.headStatus .timer d.timing.genlock d.timing.lockRun 0 d.timing.now d.timing.nextBase d.timing.delay
      d.timing.delayValid d.timing.phaseError
    (d.downlink.ctrl.length ≤ 55 → d.feed.pendingDrop = 0 → exec .headStatusTimer ⟨d, q⟩ = .next ⟨{ d with
      timing := t, downlink := { d.downlink with ctrl := d.downlink.ctrl ++ [e] } }, q⟩) ∧
    (d.downlink.ctrl.length ≤ 54 → d.feed.pendingDrop ≠ 0 → exec .headStatusTimer ⟨d, q⟩ = .next ⟨{ d with
      timing := t
      downlink := { d.downlink with ctrl := d.downlink.ctrl ++ [e, .returnDrop d.feed.pendingDrop d.timing.now] }
      feed := { d.feed with pendingDrop := 0 } }, q⟩) ∧
    (55 < d.downlink.ctrl.length → d.feed.pendingDrop = 0 → exec .headStatusTimer ⟨d, q⟩ = .next ⟨{ d with
      timing := t
      counters := { d.counters with droppedEntries := satInc d.counters.droppedEntries } }, q⟩)) ∧
  (∀ (d : Dev) (q : List Instr), d.resetAsserted = false →
    (∀ due, d.ring.frameStartEnd = some due → reached d.timing.now due = true → exec .frameStartEnd ⟨d, q⟩ =
      .next ⟨{ d with ring := { d.ring with frameStartHigh := false, frameStartEnd := none } }, q⟩) ∧
    (∀ due, d.ring.frameStartEnd = some due → reached d.timing.now due = false →
      exec .frameStartEnd ⟨d, q⟩ = .next ⟨d, q⟩)) ∧
  ∀ (d : Dev) (q : List Instr),
    (reached d.timing.now d.timing.echoDue = false → exec .echoTimer ⟨d, q⟩ = .next ⟨d, q⟩) ∧
    (d.plan.working ≠ none ∨ reached d.timing.now d.timing.statusDue = false →
      exec .headStatusTimer ⟨d, q⟩ = .next ⟨d, q⟩)

/-- REFERENCE without an anchor to compute: the loss deadline and the next base count are set, and while UNPLANNED with D
valid a FREE genlock becomes LOCKING; the schedule and the phase error stay. REFERENCE with a plan and D valid: the anchor
is t_r + T − D − L, moved on by T until it is later than the present, the base count with it; the phase error is taken
against the predicted anchor, which the new one replaces; in-group captures at or after it leave the schedule; the
phase-steps counter counts an error beyond the lock window, the genlock state moves by R116, and when it leaves LOCKED the
GENLOCK cause is set. REFERENCE_LOSS_DEADLINE, when it has passed: genlock is FREE with lock run 0, and GENLOCK is set if it
was LOCKED (R32, R108, R109, R110, R116, R117). That a passed deadline is no longer set is the model's reading (log 35). -/
def Obligations.ReferencesAreTaken : Prop :=
  (∀ (d : Dev) (q : List Instr), d.resetAsserted = false →
    (∀ (count : BitVec 32) (tr : HeadTime), (d.plan.working = none ∨ d.timing.delayValid = false) →
      let limit := match d.plan.working with
        | none => 16777216
        | some w => 8 * w.plan.period
      let locks := d.timing.delayValid = true ∧ d.timing.genlock = .free
      exec (.reference count tr) ⟨d, q⟩ = .next ⟨{ d with timing := { d.timing with
        lossDeadline := some (d.timing.now + BitVec.ofNat 32 limit)
        nextBase := count + 1
        genlock := if locks then .locking else d.timing.genlock
        lockRun := if locks then 0 else d.timing.lockRun } }, q⟩) ∧
    ∀ due, d.timing.lossDeadline = some due → reached d.timing.now due = true →
      let e := { d with timing := { d.timing with lossDeadline := none, genlock := .free, lockRun := 0 } }
      (d.timing.genlock ≠ .locked → exec .referenceLossDeadline ⟨d, q⟩ = .next ⟨e, q⟩) ∧
      (d.timing.genlock = .locked → ∃ rep, exec .referenceLossDeadline ⟨d, q⟩ = .next ⟨{ e with report := rep }, q⟩ ∧
        Report.CauseSet .genlock d.report rep)) ∧
  ∀ (d : Dev) (q : List Instr) (count : BitVec 32) (tr predicted : HeadTime) (w : WorkingPlan) (k : Nat),
    d.resetAsserted = false → d.plan.working = some w → d.timing.delayValid = true →
    d.timing.nextAnchor = some predicted → w.plan.Limits →
    let a (j : Nat) : HeadTime := tr + BitVec.ofNat 32 w.plan.period - BitVec.ofNat 32 d.timing.delay -
      BitVec.ofNat 32 w.plan.advance + BitVec.ofNat 32 (j * w.plan.period)
    let e := a k - predicted
    let inWindow := e.toInt.natAbs ≤ w.plan.lockWindow
    later (a k) d.timing.now = true → (∀ j, j < k → later (a j) d.timing.now = false) →
    ∃ rep, (d.timing.genlock = .locked → ¬inWindow → Report.CauseSet .genlock d.report rep) ∧
      (d.timing.genlock ≠ .locked ∨ inWindow → rep = d.report) ∧
    exec (.reference count tr) ⟨d, q⟩ = .next ⟨{ d with
      report := rep
      counters := if inWindow then d.counters else { d.counters with phaseSteps := satInc d.counters.phaseSteps }
      timing := { d.timing with
        lossDeadline := some (d.timing.now + BitVec.ofNat 32 (8 * w.plan.period))
        nextBase := count + 1 + BitVec.ofNat 32 k
        phaseError := e
        nextAnchor := some (a k)
        inGroup := d.timing.inGroup.filter fun c => !reached c.at_ (a k)
        genlock := if inWindow ∧ (d.timing.genlock = .locked ∨ (d.timing.genlock = .locking ∧ 2 ≤ d.timing.lockRun))
          then .locked else .locking
        lockRun := if inWindow then (match d.timing.genlock with
          | .free => 1
          | .locking => min 3 (d.timing.lockRun + 1)
          | .locked => 3) else 0 } }, q⟩

/-- The additions of R109 are the least number that brings the anchor past the present, for every period a plan may have
and wherever the anchor lies around the wrap of head time. -/
def Obligations.AdditionsAreTheLeast : Prop :=
  ∀ (now a : HeadTime) (period : Nat), 1000000 ≤ period → period ≤ 8000000 →
    later (a + BitVec.ofNat 32 (additions now a period * period)) now = true ∧
    ∀ j, j < additions now a period → later (a + BitVec.ofNat 32 (j * period)) now = false

/-- ECHO_RETURN: a return that matches the outstanding echo gives a sample, half of the round trip less the turnaround; the
first sets D, one within 256 ticks moves D an eighth of the way, an outlier is counted and the fourth in a row reseeds;
another return changes nothing (R104, R105, R106, R107). -/
def Obligations.EchoReturnIsFiltered : Prop :=
  ∀ (d : Dev) (q : List Instr) (seq : BitVec 16) (stamp arrival : HeadTime) (turnaround : BitVec 32),
    d.resetAsserted = false →
    let sample := min 65535 ((arrival - stamp).toNat - turnaround.toNat) / 2
    let diff : Int := (sample : Int) - (d.timing.delay : Int)
    let run := exec (.echoReturn seq stamp turnaround arrival) ⟨d, q⟩
    (d.timing.echoOut = false ∨ d.timing.echoSeq ≠ seq → run = .next ⟨d, q⟩) ∧
    (d.timing.echoOut = true → d.timing.echoSeq = seq → d.timing.delayValid = false → run = .next ⟨{ d with
      timing := { d.timing with echoOut := false, delay := sample, delayValid := true } }, q⟩) ∧
    (d.timing.echoOut = true → d.timing.echoSeq = seq → d.timing.delayValid = true → diff.natAbs ≤ 256 →
      d.timing.delay ≤ 32767 → run = .next ⟨{ d with timing := { d.timing with
        echoOut := false, delay := ((d.timing.delay : Int) + diff.tdiv 8).toNat, outlierRun := 0 } }, q⟩) ∧
    (d.timing.echoOut = true → d.timing.echoSeq = seq → d.timing.delayValid = true → 256 < diff.natAbs →
      run = .next ⟨{ d with
        counters := { d.counters with echoOutliers := satInc d.counters.echoOutliers }
        timing := { d.timing with
          echoOut := false
          delay := if d.timing.outlierRun < 3 then d.timing.delay else sample
          outlierRun := if d.timing.outlierRun < 3 then d.timing.outlierRun + 1 else 0 } }, q⟩)

/-- ANCHOR_EVENT at anchor a: a pending plan at least 65,536 ticks old is applied first; the plan then in force gives the
group: base count, the S − 1 in-group captures at a + j·(T div S) + min(j, T mod S), and the next anchor at a + T. With the
gate PAUSED and no pending plan the capture does nothing, a HEAD-STATUS follows, and a record falls due
(R26, R27, R33, R81, R113, R118). -/
def Obligations.AnchorEventBuildsTheGroup : Prop :=
  ∀ (d : Dev) (q : List Instr) (a : HeadTime) (w : WorkingPlan), d.resetAsserted = false → d.plan.working = some w →
    d.timing.nextAnchor = some a → reached d.timing.now a = true →
    let take := match d.plan.pending with
      | none => none
      | some n => if 65536 ≤ (a - n.at_).toNat then some n else none
    let p := match take with
      | none => w.plan
      | some n => n.plan
    ∃ t, exec .anchorEvent ⟨d, q⟩ = .next ⟨t, q⟩ ∧
      t.timing = { d.timing with
        nextBase := d.timing.nextBase + 1
        inGroup := (List.range (p.speed - 1)).map fun i =>
          { at_ := a + BitVec.ofNat 32 ((i + 1) * (p.period / p.speed) + min (i + 1) (p.period % p.speed))
            phase := i + 1, base := d.timing.nextBase }
        nextAnchor := some (a + BitVec.ofNat 32 p.period) } ∧
      t.plan = (match take with
        | none => d.plan
        | some n => { d.plan with working := some ⟨n.plan, n.seq⟩, pending := none }) ∧
      t.mem = d.mem ∧ t.uplink = d.uplink ∧ t.remote = d.remote ∧ t.watch = d.watch ∧
      (d.plan.pending = none → d.ring.gate = .paused → d.downlink.ctrl.length ≤ 55 → d.feed.pendingDrop = 0 →
        d.report.writing ≠ none → t = { d with
          timing := t.timing
          downlink := { d.downlink with ctrl := d.downlink.ctrl ++ [.headStatus .anchor d.timing.genlock
            d.timing.lockRun w.plan.speed a d.timing.nextBase d.timing.delay d.timing.delayValid d.timing.phaseError] }
          report := { d.report with recordDue := true } })

/-- What ANCHOR_EVENT does around its group. A pending plan at least 65,536 ticks old is applied first: the event is then
that of the block with the plan at work, both contexts free, every slot EMPTY with no hold, the live frames and all lines
dropped, and, where the return ring differs, the ring taken up empty with an ungranted drain write withdrawn, a granted one
marked and the new start handed to the report writer, and every replay request ended, the REPLAY-END entries offered as
REPLAY_END_OFFER offers them, one for each request in their order where the control queue has room for all. The capture of the group is offered with
phase 0 and takes a slot as any capture does; the live reader marks its slot: without an active frame it becomes active with
its line state set up, with one it waits, and a frame that waited already loses its mark and is counted. A HEAD-STATUS
follows, and a record falls due (R26, R27, R73, R81, R85, R86, R88, R99, R118, R130, R132, R133, R135, R138, R140, R143, R193). -/
def Obligations.AnchorsApplyAndCapture : Prop :=
  ∀ (d : Dev) (q : List Instr) (a : HeadTime) (w : WorkingPlan), d.resetAsserted = false → d.plan.working = some w →
    d.timing.nextAnchor = some a → reached d.timing.now a = true →
    (∀ n, d.plan.pending = some n → 65536 ≤ (a - n.at_).toNat →
      let same : Prop := n.plan.retStart = d.feed.start ∧ n.plan.retEnd = d.feed.stop
      let e := { d with
        plan := { d.plan with working := some ⟨n.plan, n.seq⟩, pending := none }
        tracker := { d.tracker with ctx0 := none, ctx1 := none, order := [] }
        ring := { d.ring with slots := d.ring.slots.map (fun _ => Slot.vacant), age := [], holdCount := 0 }
        live := { active := none, waiting := none, rasterPtr := 0, strips := [], rotation := 0, handed := 0
                  fetcher := d.live.fetcher.dropAll }
        replay := d.replay.allEnded }
      let f (rep : Report) := { e with
        report := rep
        feed := { d.feed with
          start := n.plan.retStart, stop := n.plan.retEnd, producer := n.plan.retStart, consumer := n.plan.retStart
          fifo := []
          drain := match d.feed.drain with
            | .granted k _ => .granted k true
            | .presented _ _ => .none
            | .none => .none } }
      (same → exec .anchorEvent ⟨d, q⟩ =
        exec .anchorEvent ⟨(e.thenDo .drainWriteBegin).thenDo .replayEndOffer, q⟩) ∧
      (¬same → ∃ rep : Report, rep.producer = some n.plan.retStart ∧ rep.causes = d.report.causes ∧
        rep.writing = d.report.writing ∧ (rep.producerWanted = true ∨ rep.presented = some .producerWord) ∧
        exec .anchorEvent ⟨d, q⟩ = exec .anchorEvent ⟨(f rep).thenDo .replayEndOffer, q⟩) ∧
      ∀ x : Dev, x.resetAsserted = false → x.replay = d.replay.allEnded →
        x.downlink.ctrl.length + d.replay.ends.length ≤ 64 → x.thenDo .replayEndOffer = { x with
          replay := { x.replay with queue := [], current := none }
          downlink := { x.downlink with ctrl := x.downlink.ctrl ++ d.replay.ends } }) ∧
    ∀ (i : Nat), d.plan.pending = none → d.ring.gate ≠ .paused → d.tracker.ctx0 = none ∨ d.tracker.ctx1 = none →
      d.ring.choose w.plan.slots = some i → d.downlink.ctrl.length ≤ 55 → d.feed.pendingDrop = 0 →
      d.report.writing ≠ none →
      let base := d.timing.nextBase
      let f := d.ring.frameFor i
      let x : Context := { binding := d.tracker.nextBinding, slot := i, frameStart := a,
                           fronts := List.replicate w.plan.tiles.length
                             { row := 0, byte := 0, seen := false, lastAdvance := 0, status := .running } }
      let slots := d.ring.slots.set i
        { state := .filling, frame := f, phase := 0, base := base, held := false, live := true, replay := false
          outcomes := List.replicate w.plan.tiles.length .pending
          damage := List.replicate w.plan.tiles.length [], rewrites := 0 }
      let t : Dev := { d with
        timing := { d.timing with
          nextBase := base + 1
          inGroup := (List.range (w.plan.speed - 1)).map fun j =>
            { at_ := a + BitVec.ofNat 32 ((j + 1) * (w.plan.period / w.plan.speed) + min (j + 1) (w.plan.period % w.plan.speed))
              phase := j + 1, base := base }
          nextAnchor := some (a + BitVec.ofNat 32 w.plan.period) }
        ring := { d.ring with
          slots := slots, age := d.ring.age.filter (· ≠ i) ++ [i], frameCounter := f + 1, lastStarted := some f
          frameStartHigh := true, frameStartEnd := some (d.timing.now + 148)
          slotLines := BitVec.ofNat 5 i, phaseLines := 0
          gate := match d.ring.gate with
            | .running => .running
            | .countdown n => if n = 1 then .paused else .countdown (n - 1)
            | .stepping => .paused
            | .paused => .paused }
        tracker := if d.tracker.ctx0 = none then
            { d.tracker with ctx0 := some x, order := d.tracker.order ++ [.c0], nextBinding := x.binding + 1 }
          else { d.tracker with ctx1 := some x, order := d.tracker.order ++ [.c1], nextBinding := x.binding + 1 }
        downlink := { d.downlink with ctrl := d.downlink.ctrl ++ [.headStatus .anchor d.timing.genlock d.timing.lockRun
          w.plan.speed a base d.timing.delay d.timing.delayValid d.timing.phaseError] }
        report := { d.report with recordDue := true } }
      (d.live.active = none → exec .anchorEvent ⟨d, q⟩ = .next ⟨Dev.fetchLive { t with live :=
        if w.plan.order = .raster then { d.live with active := some i, handed := 0, rasterPtr := 0 }
        else { d.live with
          active := some i, handed := 0, rotation := 0
          strips := w.plan.strips.map fun (σ : Strip) =>
            { line := if σ.up then σ.first + σ.height - 1 else σ.first, remaining := σ.height } } }, q⟩) ∧
      (∀ s, d.live.active = some s → d.live.waiting = none → exec .anchorEvent ⟨d, q⟩ =
        .next ⟨{ t with live := { d.live with waiting := some i } }, q⟩) ∧
      (∀ s v, d.live.active = some s → d.live.waiting = some v → exec .anchorEvent ⟨d, q⟩ = .next ⟨{ t with
        live := { d.live with waiting := some i }
        ring := { t.ring with slots := slots.modify v fun y => { y with live := false } }
        counters := { d.counters with liveDrops := satInc d.counters.liveDrops } }, q⟩)

/-! ### Captures, the ring, the tracker -/

/-- The slot a capture chooses: the lowest EMPTY one of the ring; failing that the first in the age order that is CLOSED,
not held and unmarked; so never a FILLING, held or marked one. The number a slot is given: the first from the frame counter
on, wrapping, that no other non-EMPTY slot carries (R82, R84). -/
def Obligations.SlotAndNumberOfACapture : Prop :=
  ∀ (r : Ring) (k : Nat), r.slots.length = 32 → k ≤ 32 →
    (∀ s, r.choose k = some s →
      (s < k ∧ (r.slot s).state = .empty ∧ ∀ u, u < s → (r.slot u).state ≠ .empty) ∨
      ((∀ u, u < k → (r.slot u).state ≠ .empty) ∧ (r.slot s).state = .closed ∧ (r.slot s).held = false ∧
        (r.slot s).live = false ∧ (r.slot s).replay = false ∧ ∃ l m, r.age = l ++ s :: m ∧
        ∀ u ∈ l, (r.slot u).state ≠ .closed ∨ (r.slot u).held ∨ (r.slot u).live ∨ (r.slot u).replay)) ∧
    (r.choose k = none → (∀ u, u < k → (r.slot u).state ≠ .empty) ∧
      ∀ u ∈ r.age, (r.slot u).state ≠ .closed ∨ (r.slot u).held ∨ (r.slot u).live ∨ (r.slot u).replay) ∧
    (∀ s, s < 32 →
      (∀ u, u ≠ s → (r.slot u).state ≠ .empty → (r.slot u).frame ≠ r.frameFor s) ∧
      ∀ j, j < (r.frameFor s - r.frameCounter).toNat →
        ∃ u, u ≠ s ∧ (r.slot u).state ≠ .empty ∧ (r.slot u).frame = r.frameCounter + BitVec.ofNat 24 j)

/-- CAPTURE of an in-group capture that is due, at a phase above 0. With the gate PAUSED it only leaves the schedule. With a
context free: with no slot to choose it is skipped and counted; else the chosen slot becomes FILLING under a new number, a
context is bound to it, the lines carry its index and phase with the frame start high for 148 ticks, and the gate counts it.
With both bound the context bound earlier is freed by a forced close: every RUNNING tile stalls with its missing rows
damaged, the frame closes as FramesClose states, its slot CLOSED and reported, the forced close is counted, and the capture
goes on as with that context free (R53, R68, R70, R71, R81, R83, R85, R86, R93, R97, R114). -/
def Obligations.CaptureTakesASlot : Prop :=
  ∀ (d : Dev) (q : List Instr) (c : InGroup) (rest : List InGroup) (w : WorkingPlan) (i : Nat),
    d.resetAsserted = false → d.timing.inGroup = c :: rest → reached d.timing.now c.at_ = true →
    d.plan.working = some w → c.phase ≠ 0 →
    let free := d.tracker.ctx0 = none ∨ d.tracker.ctx1 = none
    let e := { d with timing := { d.timing with inGroup := rest } }
    let f := d.ring.frameFor i
    let x : Context := { binding := d.tracker.nextBinding, slot := i, frameStart := c.at_,
                         fronts := List.replicate w.plan.tiles.length
                           { row := 0, byte := 0, seen := false, lastAdvance := 0, status := .running } }
    (d.ring.gate = .paused → exec .capture ⟨d, q⟩ = .next ⟨e, q⟩) ∧
    (d.ring.gate ≠ .paused → free → d.ring.choose w.plan.slots = none → exec .capture ⟨d, q⟩ = .next ⟨{ e with
      counters := { d.counters with skippedCaptures := satInc d.counters.skippedCaptures } }, q⟩) ∧
    (d.ring.gate ≠ .paused → free → d.ring.choose w.plan.slots = some i → exec .capture ⟨d, q⟩ = .next ⟨{ e with
      ring := { d.ring with
        slots := d.ring.slots.set i
          { state := .filling, frame := f, phase := c.phase, base := c.base, held := false, live := false
            replay := false, outcomes := List.replicate w.plan.tiles.length .pending
            damage := List.replicate w.plan.tiles.length [], rewrites := 0 }
        age := d.ring.age.filter (· ≠ i) ++ [i]
        frameCounter := f + 1
        lastStarted := some f
        frameStartHigh := true
        frameStartEnd := some (d.timing.now + 148)
        slotLines := BitVec.ofNat 5 i
        phaseLines := BitVec.ofNat 3 c.phase
        gate := match d.ring.gate with
          | .running => .running
          | .countdown n => if n = 1 then .paused else .countdown (n - 1)
          | .stepping => .paused
          | .paused => .paused }
      tracker := if d.tracker.ctx0 = none then
          { d.tracker with ctx0 := some x, order := d.tracker.order ++ [.c0], nextBinding := x.binding + 1 }
        else { d.tracker with ctx1 := some x, order := d.tracker.order ++ [.c1], nextBinding := x.binding + 1 } }, q⟩) ∧
    (∀ j y, d.ring.gate ≠ .paused → ¬free → d.tracker.order.head? = some j → d.tracker.ctx j = some y →
      let missing (s : Slot) : Slot := { s with damage := s.damage.mapIdx fun t l => match y.fronts[t]? with
        | some g => if g.status = .running then
            addRange (w.plan.rows (w.plan.tileAt t)) g.row (w.plan.rows (w.plan.tileAt t) - 1) l else l
        | none => l }
      let stalled : Dev := { d with
        ring := { d.ring with slots := d.ring.slots.modify y.slot missing }
        counters := { d.counters with forcedCloses := satInc d.counters.forcedCloses } }
      let z := stalled.withCtx j (some { y with fronts := y.fronts.map fun g =>
        if g.status = .running then { g with status := .stalled } else g })
      (z.closeCheck w.plan j).tracker.ctx j = none ∧
      (∀ k, k ≠ j → (z.closeCheck w.plan j).tracker.ctx k = d.tracker.ctx k) ∧
      exec .capture ⟨d, q⟩ = exec .capture ⟨(z.closeCheck w.plan j).fetchLive, q⟩)

/-- What a tracker piece does, by the state of its slot and the status and front of its tile. EMPTY: a stray write. CLOSED:
a stray write, and a disturbed one if a reader has marked the slot. FILLING, the tile not RUNNING: a late write. RUNNING and
wholly behind the front: a rewrite of the slot, the tile seen. In place (the front's byte in the span): the front moves past
the piece, at a row end to byte 0 of the next row, and the last-advance time is the grant's; a piece further on in the row
also damages that row (gap); one in a later row damages the rows from the front's to the one before it, and its own row too
if it does not begin at byte 0 (jump). A piece that ends the last row finishes the tile, and the close check follows. After a
front moves the live reader looks for lines to fetch (R54, R55, R56, R57, R58, R59, R60, R62, R69, R70, R131). -/
def Obligations.TrackerPiecesAreJudged : Prop :=
  ∀ (d : Dev) (p : Plan) (now : HeadTime) (q : Piece), d.resetAsserted = false →
    let x := d.ring.slot q.slot
    let run := d.trackerPiece p now q
    (x.state = .empty → run = { d with
      counters := { d.counters with strayWrites := satInc d.counters.strayWrites } }) ∧
    (x.state = .closed → run = { d with counters := { d.counters with
      strayWrites := satInc d.counters.strayWrites
      disturbedWrites := if x.live = true ∨ x.replay = true then satInc d.counters.disturbedWrites
        else d.counters.disturbedWrites } }) ∧
    ∀ (i : CtxId) (c : Context) (g : Front), x.state = .filling → d.tracker.ctx i = some c → c.slot = q.slot →
      (∀ j e, d.tracker.ctx j = some e → e.slot = q.slot → j = i) → c.fronts[q.tile]? = some g → q.first < q.stop →
      let rows := (p.tileAt q.tile).lead + (p.stripAt (p.tileAt q.tile).strip).height
      let rowEnd : Prop := q.stop = (p.tileAt q.tile).cols * p.bpp
      let finishes : Prop := rowEnd ∧ q.row + 1 = rows
      let behind : Prop := q.row < g.row ∨ (q.row = g.row ∧ q.stop ≤ g.byte)
      let damaged (f l : Nat) (s : Slot) : Slot := { s with damage := s.damage.modify q.tile (addRange rows f l) }
      let skipped (s : Slot) : Slot :=
        if g.row < q.row then
          if q.first = 0 then damaged g.row (q.row - 1) s else damaged q.row q.row (damaged g.row (q.row - 1) s)
        else if g.byte < q.first then damaged g.row g.row s
        else s
      let put (h : Front) : Option Context := some { c with fronts := c.fronts.set q.tile h }
      let slots (f : Slot → Slot) : Ring := { d.ring with slots := d.ring.slots.modify q.slot f }
      let moved : Dev := Dev.withCtx i (put
          { row := if rowEnd then q.row + 1 else q.row, byte := if rowEnd then 0 else q.stop, seen := true
            lastAdvance := now, status := if finishes then .finished else .running }) { d with ring := slots skipped }
      (g.status ≠ .running → run = { d with
        counters := { d.counters with lateWrites := satInc d.counters.lateWrites } }) ∧
      (g.status = .running → behind → run = Dev.withCtx i (put { g with seen := true })
        { d with ring := slots fun s => { s with rewrites := satInc s.rewrites } }) ∧
      (g.status = .running → ¬behind → ¬finishes → run = moved.fetchLive) ∧
      (g.status = .running → ¬behind → finishes → run = (moved.closeCheck p i).fetchLive)

/-- TILE_DEADLINE_EXPIRY of a RUNNING tile whose deadline is reached: its rows from the front row to the last join its
damage list and it is STALLED, the front left where it stood; the close check follows, and closes the frame when no tile of
the context is RUNNING any more (FramesClose); then the live reader looks for lines to fetch. While another tile of the
context runs no frame closes, and besides the slot table, the tracker and the live reader nothing changes
(R62, R65, R66, R67, R68, R70, R131). That nothing happens before the deadline is the model's choice (log 4). -/
def Obligations.TileDeadlineStalls : Prop :=
  ∀ (d : Dev) (q : List Instr) (n : Nat) (i : CtxId) (t : Nat) (w : WorkingPlan) (c : Context) (g : Front),
    d.resetAsserted = false → (n = 0 ∧ i = .c0 ∨ n = 1 ∧ i = .c1) → d.plan.working = some w →
    d.tracker.ctx i = some c → c.fronts[t]? = some g → g.status = .running →
    let due := if g.seen then g.lastAdvance + BitVec.ofNat 32 (2 ^ w.plan.rowUnit * 256 * w.plan.rowCount)
      else c.frameStart + BitVec.ofNat 32 w.plan.startAllowance
    let rows := w.plan.rows (w.plan.tileAt t)
    let stalled (x : Slot) : Slot := { x with damage := x.damage.modify t (addRange rows g.row (rows - 1)) }
    let z := Dev.withCtx i (some { c with fronts := c.fronts.set t { g with status := .stalled } })
      { d with ring := { d.ring with slots := d.ring.slots.modify c.slot stalled } }
    (reached d.timing.now due = false → exec (.tileDeadlineExpiry n t) ⟨d, q⟩ = .next ⟨d, q⟩) ∧
    (reached d.timing.now due = true →
      exec (.tileDeadlineExpiry n t) ⟨d, q⟩ = .next ⟨(z.closeCheck w.plan i).fetchLive, q⟩) ∧
    (∀ u g', reached d.timing.now due = true → c.fronts[u]? = some g' → u ≠ t → g'.status = .running →
      ∃ e : Dev, exec (.tileDeadlineExpiry n t) ⟨d, q⟩ = .next ⟨e, q⟩ ∧
      e.tracker.ctx i = some { c with fronts := c.fronts.set t { g with status := .stalled } } ∧
      (∀ j, j ≠ i → e.tracker.ctx j = d.tracker.ctx j) ∧ e.tracker.order = d.tracker.order ∧
      e.ring = { d.ring with slots := d.ring.slots.modify c.slot stalled } ∧
      e = { d with ring := e.ring, tracker := e.tracker, live := e.live })

/-- The close check. While a tile of the context is RUNNING nothing happens. When none is: the outcomes, FINISHED or STALLED
tile by tile, go to the slot record, the slot is CLOSED, the context is free and leaves the binding order, and a
FRAME-CLOSED entry is offered with the frame number, slot, phase, base count, the number of damaged output rows (rows at the
lead or above that lie in the damage list, over all tiles), the stalled tiles and the rewrites; with fewer than 17 entries
free it is dropped and counted. A replay request that waited for that slot enters SENDING at its first line, the slot marked
(R70, R75, R88, R97, R98, R138, R139, R154). -/
def Obligations.FramesClose : Prop :=
  ∀ (d : Dev) (p : Plan) (i : CtxId) (c : Context) (h : Nat), d.resetAsserted = false → d.tracker.ctx i = some c →
    c.slot < d.ring.slots.length → (∀ w, d.plan.working = some w → w.plan.height = h) →
    let s := d.ring.slot c.slot
    let rows (t : Nat) := p.rows (p.tileAt t)
    let damaged (t : Nat) := ((List.range (rows t)).filter fun r => (p.tileAt t).lead ≤ r &&
      (s.damage.getD t []).any fun g => g.first ≤ r && r ≤ g.last).length
    let closed : Slot := { s with
      state := .closed
      outcomes := c.fronts.map fun g => match g.status with
        | .running => .pending
        | .finished => .finished
        | .stalled => .stalled }
    let entry := Entry.frameClosed s.frame c.slot s.phase s.base ((List.range p.tiles.length).map damaged).sum
      (c.fronts.map fun g => g.status = .stalled) s.rewrites
    let room : Prop := d.downlink.ctrl.length ≤ 47
    let e := Dev.withCtx i none { d with
      ring := { d.ring with slots := d.ring.slots.set c.slot closed }
      tracker := { d.tracker with order := d.tracker.order.filter (· ≠ i) }
      downlink := { d.downlink with ctrl := if room then d.downlink.ctrl ++ [entry] else d.downlink.ctrl }
      counters := if room then d.counters else { d.counters with droppedEntries := satInc d.counters.droppedEntries } }
    ((∃ g ∈ c.fronts, g.status = .running) → d.closeCheck p i = d) ∧
    ((∀ g ∈ c.fronts, g.status ≠ .running) → (∀ t, t < p.tiles.length → RangesSafe (rows t) (s.damage.getD t [])) →
      ((∀ r, d.replay.current = some r → r.stage = .waitingClose → r.slot ≠ c.slot) → d.closeCheck p i = e) ∧
      ∀ r, d.replay.current = some r → r.stage = .waitingClose → r.slot = c.slot → d.plan.working ≠ none →
        d.closeCheck p i = Dev.fetchReplay { e with
          ring := { e.ring with slots := d.ring.slots.set c.slot { closed with replay := true } }
          replay := { d.replay with current := some { req := r.req, stage := .sending, slot := c.slot, marked := true
                                                      nextLine := r.req.first, linesSent := 0
                                                      lastLine := if r.req.count = 0 then h - 1
                                                        else min (r.req.first + r.req.count - 1) (h - 1) } } })

/-- Adding a row range keeps a damage list as R61 wants it, loses no damaged row, and, unless the list overflows, damages
no row but those of the range (R61, R62, R63). -/
def Obligations.DamageListsStayOrdered : Prop :=
  ∀ (rows f l : Nat) (list : List RowRange), RangesSafe rows list → f ≤ l → l < rows →
    RangesSafe rows (addRange rows f l list) ∧
    (∀ row, rowIn list row ∨ (f ≤ row ∧ row ≤ l) → rowIn (addRange rows f l list) row) ∧
    ((list.length < 8 ∨ ∃ r ∈ list, r.first ≤ l + 1 ∧ f ≤ r.last + 1) →
      ∀ row, rowIn (addRange rows f l list) row → rowIn list row ∨ (f ≤ row ∧ row ≤ l))

/-! ### Lines -/

/-- Under a plan that validation passes, the address of every output pixel lies in the data bytes of the row and column
that carry it: the forward map leads from that address back to the slot, the tile, the row and the byte, and from there to
the line and the column (R44, R45, R47, R48, R50). -/
def Obligations.PixelAddressesMapBack : Prop :=
  ∀ (g : Staged) (planAddr mem s t σ x y : Nat), g.failure planAddr mem = none → g.tiles.length = g.tileCount →
    g.strips.length = g.stripCount →
    let p := g.toPlan.clamp
    let tile := p.tileAt t
    s < p.slots → t < p.tiles.length → p.stripOf y = some σ → tile.strip = σ → tile.x ≤ x →
    x < tile.x + tile.active →
    p.locate (p.pixelAddr s tile x y) =
      some { slot := s, tile := t, row := p.rowOf tile y, byte := tile.storedCol x * p.bpp } ∧
    p.lineOf tile (p.rowOf tile y) = some y ∧ tile.outputCol (tile.storedCol x) = some x

/-- Which lines may be sent and which are damaged. A line of a CLOSED frame is sendable; one of a FILLING frame while, in the
context bound to its slot, every tile of the line's strip has its front beyond the line's row or is no longer RUNNING; one
of an EMPTY slot is not. A segment is damaged while its row lies in its tile's damage list. In ARRIVAL order the strip
chosen is the first, from the rotation position on, that has lines left and whose next line may be sent: it is sendable, or
the source is TEST (R74, R75, R128, R131, R133). -/
def Obligations.LinesAreSendable : Prop :=
  ∀ (d : Dev) (p : Plan) (s y σ : Nat), p.stripOf y = some σ →
    let mine (c : Context) : Prop := ∀ t, t < p.tiles.length → (p.tileAt t).strip = σ →
      (c.fronts.getD t { row := 0, byte := 0, seen := false, lastAdvance := 0, status := .running }).status ≠ .running ∨
      p.rowOf (p.tileAt t) y <
        (c.fronts.getD t { row := 0, byte := 0, seen := false, lastAdvance := 0, status := .running }).row
    let gives (σ : Nat) : Prop := ∃ g, d.live.strips[σ]? = some g ∧ 1 ≤ g.remaining ∧
      (p.source = .test ∨ d.sendable p s g.line = true)
    let turn (k : Nat) := (d.live.rotation + k) % p.strips.length
    ((∀ i j c e, d.tracker.ctx i = some c → d.tracker.ctx j = some e → c.slot = e.slot → i = j) →
      (d.sendable p s y = true ↔ (d.ring.slot s).state = .closed ∨
        ((d.ring.slot s).state = .filling ∧ ∃ i c, d.tracker.ctx i = some c ∧ c.slot = s ∧ mine c))) ∧
    (∀ (x : Slot) (t : Nat), p.segDamaged x y t = true ↔ rowIn (x.damage.getD t []) (p.rowOf (p.tileAt t) y)) ∧
    (∀ τ, d.arrivalChoice p s = some τ ↔ ∃ k, k < p.strips.length ∧ τ = turn k ∧ gives τ ∧ ∀ j, j < k → ¬gives (turn j)) ∧
    (d.arrivalChoice p s = none ↔ ∀ k, k < p.strips.length → ¬gives (turn k))

/-- The requests of a line under SENSOR. Each segment is fetched from its own row, or, where that row is damaged, by the
conceal mode: RAW its own row, BLACK nothing, REPEAT line y − 1 over the segment's columns, damaged or not, and for line 0
nothing; the runs of a range of columns are those of the tiles that meet it, in ascending columns. A run of n bytes is read
in requests of 1 to 256 bytes that adjoin, hold all n, and are cut at every multiple of 256 and nowhere else. At the
beginning of the fetch the buffer holds zeros, is concealed if a segment is damaged, and presents its first request; without
a request it is READY at once (R51, R121, R122, R123, R126, R127). -/
def Obligations.LinesAreRequested : Prop :=
  ∀ (p : Plan) (x : Slot) (s y : Nat),
    (∀ t, let tile := p.tileAt t
      let own := (p.runOf s y 0 p.width tile).toList
      p.segRuns x s y t =
        if p.segDamaged x y t = true then
          match p.conceal with
          | .raw => own
          | .black => []
          | .repeatLine => if y = 0 then [] else
              p.runs s (y - 1) tile.x (tile.x + (tile.cols - tile.trimLeft - tile.trimRight))
        else own) ∧
    (∀ x0 x1 σ, p.stripOf y = some σ →
      (∀ r, r ∈ p.runs s y x0 x1 ↔ ∃ t, t < p.tiles.length ∧ (p.tileAt t).strip = σ ∧
        p.runOf s y x0 x1 (p.tileAt t) = some r) ∧
      (p.runs s y x0 x1).Pairwise fun a b => a.xa ≤ b.xa) ∧
    (∀ r : Run, let n := (r.xb - r.xa) * p.bpp
      ((r.fetch p.bpp).map (·.len)).sum = n ∧
      ∀ (l m : List FetchReq) (q : FetchReq), r.fetch p.bpp = l ++ q :: m →
        q.off = (l.map (·.len)).sum ∧ q.addr = r.start + q.off ∧ 1 ≤ q.len ∧ q.len ≤ 256 ∧
        q.addr % 256 + q.len ≤ 256 ∧ (m ≠ [] → (q.addr + q.len) % 256 = 0) ∧
        q.xa = r.xa ∧ q.xb = r.xb ∧ q.mirror = r.mirror ∧ q.bpp = p.bpp) ∧
    ∀ (f : Fetcher) (last : Bool) (i : BufId) (σ : Nat), p.source = .sensor → p.stripOf y = some σ → ∃ tiles : List Nat,
      (∀ t, t ∈ tiles ↔ t < p.tiles.length ∧ (p.tileAt t).strip = σ) ∧ tiles.Nodup ∧
      (tiles.Pairwise fun t u => (p.tileAt t).x ≤ (p.tileAt u).x) ∧
      let all := tiles.flatMap fun t => (p.segRuns x s y t).flatMap (Run.fetch p.bpp)
      let b : LineBuf := { state := .fetching, slot := s, frame := x.frame, line := y, test := false, last := last
                           concealed := tiles.any fun t => p.segDamaged x y t
                           nextCell := 0, discard := false, outstanding := 0, todo := []
                           data := List.replicate (p.width * p.bpp) 0 }
      (all = [] → f.begin_ p x s y last i = { f.setBuf i { b with state := .ready } with order := f.order ++ [i] }) ∧
      ∀ r rest, all = r :: rest → f.begin_ p x s y last i =
        { f.setBuf i { b with todo := rest } with order := f.order ++ [i], req := some (i, r) }

/-- Where a run's bytes come from and where they go. The run of a tile for the columns [x0, x1) covers the columns where the
two meet, and its byte k is byte k mod p of the pixel of its k div p-th column, counted from the left, or from the right in
a mirrored tile. A response puts its bytes, from byte `off` of the run, at those pixels of the line, each pixel with its
bytes in stored order, and leaves every other byte of the line as it was (R48, R50, R51, R122). -/
def Obligations.RunsMeetTheirPixels : Prop :=
  (∀ (p : Plan) (s y x0 x1 : Nat) (t : Tile), t.trimLeft + t.trimRight < t.cols →
    let width := t.cols - t.trimLeft - t.trimRight
    let xa := max x0 t.x
    let xb := min x1 (t.x + width)
    (xb ≤ xa → p.runOf s y x0 x1 t = none) ∧
    (xa < xb → ∃ r, p.runOf s y x0 x1 t = some r ∧ r.xa = xa ∧ r.xb = xb ∧ r.mirror = t.mirror ∧
      ∀ k, k < (xb - xa) * p.bpp →
        r.start + k = p.pixelAddr s t (if t.mirror then xb - 1 - k / p.bpp else xa + k / p.bpp) y + k % p.bpp)) ∧
  ∀ (q : FetchReq) (off : Nat) (bytes line : List Byte), 1 ≤ q.bpp → off + bytes.length ≤ (q.xb - q.xa) * q.bpp →
    q.xb * q.bpp ≤ line.length →
    let place (k : Nat) := (if q.mirror then q.xb - 1 - k / q.bpp else q.xa + k / q.bpp) * q.bpp + k % q.bpp
    (q.fill off bytes line).length = line.length ∧
    (∀ j b, bytes[j]? = some b → (q.fill off bytes line)[place (off + j)]? = some b) ∧
    ∀ u, (∀ j, j < bytes.length → u ≠ place (off + j)) → (q.fill off bytes line)[u]? = (line)[u]?

/-! ### The uplink -/

/-- UPLINK_FRAME_START records the arrival time and sets the missing-frame deadline 5,940 ticks on; a frame still being
gathered ends short as a bad one. MISSING_FRAME_EXPIRY, when the deadline is reached: one frame is counted missing, the
deadline is set again, and the lock state moves as for a bad frame; at the sixteenth the lock is lost: SEARCHING, runs 0,
the last sequence invalid, the replay credit 0 and LINK set (R142, R159, R161, R162, R163). -/
def Obligations.FrameStartsAndMissingFrames : Prop :=
  ∀ (d : Dev) (q : List Instr), d.resetAsserted = false →
    let short := d.uplink.locked = false ∨ d.uplink.badRun < 15
    let bad (u : Uplink) : Uplink :=
      if d.uplink.locked then { u with badRun := d.uplink.badRun + 1 } else { u with goodRun := 0 }
    let u := { d.uplink with frameStart := some d.timing.now, missingDue := some (d.timing.now + 5940) }
    (d.uplink.frameStart = none → exec .uplinkFrameStart ⟨d, q⟩ = .next ⟨{ d with uplink := u }, q⟩) ∧
    (d.uplink.frameStart ≠ none → short → exec .uplinkFrameStart ⟨d, q⟩ = .next ⟨{ d with
        counters := { d.counters with badFrames := satInc d.counters.badFrames }, uplink := bad u }, q⟩) ∧
    ∀ due, d.uplink.missingDue = some due → reached d.timing.now due = true →
      let c := { d.counters with missingFrames := satInc d.counters.missingFrames }
      let v := { d.uplink with missingDue := some (due + 5940) }
      (short → exec .missingFrameExpiry ⟨d, q⟩ = .next ⟨{ d with counters := c, uplink := bad v }, q⟩) ∧
      (¬short → ∃ rep, exec .missingFrameExpiry ⟨d, q⟩ = .next ⟨{ d with
          counters := c
          uplink := { v with locked := false, goodRun := 0, badRun := 0, lastSeq := none }
          replay := { d.replay with credit := 0 }
          report := rep }, q⟩ ∧ Report.CauseSet .link d.report rep)

/-- UPLINK_FRAME: a bad frame is counted and discarded, and the sixteenth in a row in LOCKED loses the lock: SEARCHING, runs
0, the last sequence invalid, the replay credit 0 and LINK set. A good one in SEARCHING moves the run and the last sequence;
the fourth in a row reaches LOCKED and is then treated as any good frame of LOCKED. A repeat in LOCKED is not parsed; and
the first queued order of a parsed frame, followed by the end mark, joins the order queue with its kind and body, or is
discarded and counted when sixteen wait (R142, R160, R162, R163, R164, R165, R169). That the good run stands at 4 while
LOCKED is the model's choice (log 38). -/
def Obligations.UplinkFramesAreTaken : Prop :=
  ∀ (d : Dev) (q : List Instr) (bytes : List Byte) (t₀ : HeadTime), d.resetAsserted = false →
    d.uplink.frameStart = some t₀ → bytes.length = 256 →
    let seq : BitVec 16 := BitVec.ofNat 16 (leNat (bytes.take 2))
    let good := (crc16 (bytes.take 254)).toNat = leNat ((bytes.drop 254).take 2)
    let u := { d.uplink with frameStart := none }
    let run := exec (.uplinkFrame bytes) ⟨d, q⟩
    (¬good → (d.uplink.locked = false ∨ d.uplink.badRun < 15) → run = .next ⟨{ d with
      counters := { d.counters with badFrames := satInc d.counters.badFrames }
      uplink := if d.uplink.locked then { u with badRun := d.uplink.badRun + 1 } else { u with goodRun := 0 } }, q⟩) ∧
    (¬good → d.uplink.locked = true → 15 ≤ d.uplink.badRun → ∃ rep, run = .next ⟨{ d with
      counters := { d.counters with badFrames := satInc d.counters.badFrames }
      uplink := { u with locked := false, goodRun := 0, badRun := 0, lastSeq := none }
      replay := { d.replay with credit := 0 }
      report := rep }, q⟩ ∧ Report.CauseSet .link d.report rep) ∧
    (good → d.uplink.locked = false → d.uplink.goodRun < 3 → run = .next ⟨{ d with
      uplink := { u with goodRun := d.uplink.goodRun + 1, lastSeq := some seq } }, q⟩) ∧
    (good → d.uplink.locked = false → 3 ≤ d.uplink.goodRun → run = exec (.uplinkFrame bytes) ⟨{ d with
      uplink := { d.uplink with locked := true, goodRun := 4, badRun := 0 } }, q⟩) ∧
    (good → d.uplink.locked = true → d.uplink.lastSeq = some seq → (bytes.getD 2 0).getLsbD 0 = false →
      run = .next ⟨{ d with uplink := { u with badRun := 0 } }, q⟩) ∧
    (∀ (k len : Byte) (body rest : List Byte), good → d.uplink.locked = true →
      (d.uplink.lastSeq ≠ some seq ∨ (bytes.getD 2 0).getLsbD 0 = true) →
      (bytes.drop 4).take 250 = k :: len :: (body ++ 0 :: rest) → body.length = len.toNat →
      16 ≤ k.toNat → orderLengthOk k.toNat len.toNat = true →
      let v := { u with badRun := 0, lastSeq := some seq }
      (d.uplink.orders.length < 16 → run = .next ⟨{ d with uplink := { v with
        orders := d.uplink.orders ++ [⟨k, body⟩] } }, q⟩) ∧
      (16 ≤ d.uplink.orders.length → run = .next ⟨{ d with
        uplink := v
        counters := { d.counters with discardedOrders := satInc d.counters.discardedOrders } }, q⟩))

/-- The orders of a parsed frame are handled one after another, each on what the one before left: a kind or a length the
order table does not have is counted and skipped; a REFERENCE as the first order, and an ECHO-RETURN, a CREDIT or a
RETURN-DATA anywhere, do at their place what the commands of those names do, with the frame's arrival time; a later
REFERENCE is counted misplaced; any other order joins the queue, or is discarded and counted when sixteen wait. Kind 0 or
the end of the area ends the frame; an order that would run past the end counts an overrun, those before it standing. CREDIT
adds to the credit, at most 1,023, and replay fetches may begin. RETURN_DATA that fits joins the FIFO whole, and a drain
write may begin; one that does not fit is refused whole and counted twice over
(R142, R165, R166, R167, R168, R169, R187, R189). -/
def Obligations.OrdersAreHandledInTheirPlace : Prop :=
  (∀ (d : Dev) (q : List Instr) (bytes : List Byte) (t₀ : HeadTime) (orders : List (Byte × List Byte)) (rest : List Byte),
    d.resetAsserted = false → d.uplink.frameStart = some t₀ → bytes.length = 256 →
    (crc16 (bytes.take 254)).toNat = leNat ((bytes.drop 254).take 2) → d.uplink.locked = true →
    let seq : BitVec 16 := BitVec.ofNat 16 (leNat (bytes.take 2))
    (d.uplink.lastSeq ≠ some seq ∨ (bytes.getD 2 0).getLsbD 0 = true) →
    (∀ o ∈ orders, o.1 ≠ 0 ∧ o.2.length < 256) →
    (bytes.drop 4).take 250 = (orders.flatMap fun o => o.1 :: BitVec.ofNat 8 o.2.length :: o.2) ++ rest →
    let known (k n : Nat) : Prop := k = 0x01 ∧ n = 4 ∨ k = 0x02 ∧ n = 10 ∨ k = 0x03 ∧ n = 1 ∨
      k = 0x04 ∧ (1 ≤ n ∧ n ≤ 240) ∨ k = 0x10 ∧ n = 5 ∨ k = 0x11 ∧ n = 10 ∨ k = 0x12 ∧ n = 3 ∨ k = 0x13 ∧ n = 5 ∨
      k = 0x14 ∧ n = 6 ∨ k = 0x15 ∧ n = 2 ∨ k = 0x20 ∧ n = 10 ∨ k = 0x21 ∧ n = 3 ∨ k = 0x30 ∧ n = 4 ∨ k = 0x31 ∧ n = 7 ∨
      k = 0x32 ∧ n = 6 ∨ k = 0x33 ∧ (6 ≤ n ∧ n ≤ 69) ∨ k = 0x34 ∧ n = 3 ∨ k = 0x35 ∧ (3 ≤ n ∧ n ≤ 66) ∨
      k = 0x36 ∧ (7 ≤ n ∧ n ≤ 21 ∧ n % 2 = 1)
    let handle (first : Bool) (o : Byte × List Byte) (e : Dev) : Dev :=
      let field (off n : Nat) := leNat ((o.2.drop off).take n)
      if ¬known o.1.toNat o.2.length then
        { e with counters := { e.counters with unknownOrders := satInc e.counters.unknownOrders } }
      else if o.1 = 1 then
        if first then e.thenDo (.reference (BitVec.ofNat 32 (field 0 4)) t₀)
        else { e with counters := { e.counters with misplacedReferences := satInc e.counters.misplacedReferences } }
      else if o.1 = 2 then
        e.thenDo (.echoReturn (BitVec.ofNat 16 (field 0 2)) (BitVec.ofNat 32 (field 2 4)) (BitVec.ofNat 32 (field 6 4)) t₀)
      else if o.1 = 3 then e.thenDo (.credit (BitVec.ofNat 8 (field 0 1)))
      else if o.1 = 4 then e.thenDo (.returnData o.2)
      else if e.uplink.orders.length < 16 then
        { e with uplink := { e.uplink with orders := e.uplink.orders ++ [⟨o.1, o.2⟩] } }
      else { e with counters := { e.counters with discardedOrders := satInc e.counters.discardedOrders } }
    let v := { d with uplink := { d.uplink with frameStart := none, badRun := 0, lastSeq := some seq } }
    let handled := match orders with
      | [] => v
      | o :: os => os.foldl (fun e x => handle false x e) (handle true o v)
    let run := exec (.uplinkFrame bytes) ⟨d, q⟩
    ((rest = [] ∨ rest.head? = some 0) → run = .next ⟨handled, q⟩) ∧
    ((∃ k, k ≠ 0 ∧ (rest = [k] ∨ ∃ len tail, rest = k :: len :: tail ∧ tail.length < len.toNat)) → run = .next ⟨{ handled with
      counters := { handled.counters with overrunFrames := satInc handled.counters.overrunFrames } }, q⟩)) ∧
  ∀ (d : Dev) (q : List Instr) (n : BitVec 8) (bytes : List Byte), d.resetAsserted = false →
    let e := { d with replay := { d.replay with credit := min 1023 (d.replay.credit + n.toNat) } }
    (exec (.credit n) ⟨d, q⟩ = .next ⟨e.fetchReplay, q⟩ ∧ (d.replay.current = none → e.fetchReplay = e)) ∧
    (d.feed.fifo.length + bytes.length ≤ 4096 → exec (.returnData bytes) ⟨d, q⟩ =
      .next ⟨Dev.thenDo .drainWriteBegin { d with feed := { d.feed with fifo := d.feed.fifo ++ bytes } }, q⟩) ∧
    (d.feed.stop ≤ d.feed.start → d.feed.fifo.length + bytes.length ≤ 4096 →
      exec (.returnData bytes) ⟨d, q⟩ = .next ⟨{ d with feed := { d.feed with fifo := d.feed.fifo ++ bytes } }, q⟩) ∧
    (d.feed.fifo.length ≤ 4096 → 4096 < d.feed.fifo.length + bytes.length → exec (.returnData bytes) ⟨d, q⟩ =
      .next ⟨{ d with
        counters := { d.counters with returnDrops := satInc d.counters.returnDrops }
        feed := { d.feed with pendingDrop := satInc d.feed.pendingDrop } }, q⟩)

/-! ### Queued orders -/

/-- The five GATE orders, taken by the idle executor and answered in the same event: RUN and PAUSE from any state, STEP but
in STEPPING, MARK only in RUNNING and then with the last started frame number as data, and an unknown action INVALID; all
else stays (R89, R90, R91, R92, R170, R171). -/
def Obligations.GateOrders : Prop :=
  ∀ (d : Dev) (q : List Instr) (tag : Tag) (n : BitVec 16) (action : BitVec 8),
    let set (g : Gate) : Dev := { d with ring := { d.ring with gate := g } }
    let last := match d.ring.lastStarted with
      | none => [0, 0, 0, 0]
      | some f => leBytes 3 f.toNat ++ [1]
    (Ready (.gateRun tag) ⟨d, q⟩ → exec (.gateRun tag) ⟨d, q⟩ = .next ⟨(set .running).answered 0x10 tag .done [], q⟩) ∧
    (Ready (.gatePause tag) ⟨d, q⟩ → exec (.gatePause tag) ⟨d, q⟩ =
      .next ⟨(set .paused).answered 0x10 tag .done [], q⟩) ∧
    (Ready (.gateStep tag) ⟨d, q⟩ → exec (.gateStep tag) ⟨d, q⟩ =
      .next ⟨if d.ring.gate = .stepping then d.answered 0x10 tag .busy []
        else (set .stepping).answered 0x10 tag .done [], q⟩) ∧
    (Ready (.gateMark tag n) ⟨d, q⟩ → exec (.gateMark tag n) ⟨d, q⟩ = .next ⟨match d.ring.gate with
      | .running => (set (if n = 0 then .paused else .countdown n)).answered 0x10 tag .done last
      | .countdown _ => d.answered 0x10 tag .busy []
      | .stepping => d.answered 0x10 tag .busy []
      | .paused => d.answered 0x10 tag .invalid [], q⟩) ∧
    (Ready (.gateUnknownAction tag action) ⟨d, q⟩ → exec (.gateUnknownAction tag action) ⟨d, q⟩ =
      .next ⟨d.answered 0x10 tag .invalid [], q⟩)

/-- REPLAY: UNPLANNED without a plan, INVALID for a first line of H or more, FULL with four requests queued, else DONE with
the request at the end of the queue. With none current it is started at once: for an absent frame it ends GONE, its
REPLAY-END before the RESPONSE, which is held if that entry was the last free one; for a FILLING frame it is current in WAITING-CLOSE with that slot; for a CLOSED one the slot
gets its REPLAY mark, and the request is current in SENDING from its first line to the least of its count and the frame's
end (a count of 0: to line H − 1), no line sent, and its first fetches begin (R136, R137, R138, R139, R140, R171). What the
next and the last line hold in WAITING-CLOSE is the model's choice and not stated (log 37). -/
def Obligations.ReplayOrders : Prop :=
  ∀ (d : Dev) (q : List Instr) (tag : Tag) (frame : FrameNo) (first count : BitVec 16) (paced : Bool),
    let c := Instr.replay tag frame first count paced
    let r : ReplayReq := ⟨tag, frame, first.toNat, count.toNat, paced, false⟩
    Ready c ⟨d, q⟩ →
    (d.plan.working = none → exec c ⟨d, q⟩ = .next ⟨d.answered 0x11 tag .unplanned [], q⟩) ∧
    ∀ w, d.plan.working = some w →
      (w.plan.height ≤ first.toNat → exec c ⟨d, q⟩ = .next ⟨d.answered 0x11 tag .invalid [], q⟩) ∧
      (first.toNat < w.plan.height → 4 ≤ d.replay.queue.length →
        exec c ⟨d, q⟩ = .next ⟨d.answered 0x11 tag .full [], q⟩) ∧
      (first.toNat < w.plan.height → d.replay.queue.length < 4 → d.replay.current ≠ none → exec c ⟨d, q⟩ =
        .next ⟨Dev.answered 0x11 tag .done [] { d with replay := { d.replay with
          queue := d.replay.queue ++ [r] } }, q⟩) ∧
      (first.toNat < w.plan.height → d.replay.queue = [] → d.replay.current = none → d.ring.lookup frame = none →
        exec c ⟨d, q⟩ = .next ⟨Dev.answered 0x11 tag .done [] { d with
          downlink := { d.downlink with ctrl := d.downlink.ctrl ++ [.replayEnd .gone tag frame 0] } }, q⟩) ∧
      ∀ s, first.toNat < w.plan.height → d.replay.queue = [] → d.replay.current = none → d.ring.lookup frame = some s →
        ((d.ring.slot s).state = .filling → ∃ next last, exec c ⟨d, q⟩ = .next ⟨Dev.answered 0x11 tag .done [] { d with
          replay := { d.replay with current := some { req := r, stage := .waitingClose, slot := s, marked := false
                                                      nextLine := next, lastLine := last, linesSent := 0 } } }, q⟩) ∧
        ((d.ring.slot s).state = .closed → exec c ⟨d, q⟩ = .next ⟨Dev.answered 0x11 tag .done [] (Dev.fetchReplay { d with
          ring := { d.ring with slots := d.ring.slots.modify s fun x => { x with replay := true } }
          replay := { d.replay with current := some { req := r, stage := .sending, slot := s, marked := true
                                                      nextLine := first.toNat, linesSent := 0
                                                      lastLine := if count = 0 then w.plan.height - 1
                                                        else min (first.toNat + count.toNat - 1)
                                                          (w.plan.height - 1) } } }), q⟩)

/-- CANCEL of both forms is answered DONE, also with nothing to cancel. A current request in WAITING-CLOSE or SENDING enters
ENDING CANCELLED, its mark removed and its lines dropped; one in ENDING is left as it is; the second form then flags every
queued request cancelled, which keeps its place; the REPLAY-END entries are then offered as REPLAY_END_OFFER offers them,
before the RESPONSE, and after the first form the next queued request starts. Where the control queue has room: the current
request ends CANCELLED with the lines sent so far, and after the second form every queued request CANCELLED with no line
sent, one REPLAY-END each, in the order of the queue; a RESPONSE that then finds the queue full is held
(R136, R138, R140, R141, R171). -/
def Obligations.CancelOrders : Prop :=
  ∀ (d : Dev) (q : List Instr) (tag : Tag),
    (d.replay.current = none → d.replay.queue = [] →
      (Ready (.cancelCurrent tag) ⟨d, q⟩ → exec (.cancelCurrent tag) ⟨d, q⟩ =
        .next ⟨d.answered 0x12 tag .done [], q⟩) ∧
      (Ready (.cancelAll tag) ⟨d, q⟩ → exec (.cancelAll tag) ⟨d, q⟩ = .next ⟨d.answered 0x12 tag .done [], q⟩)) ∧
    ∀ c : CurrentReq, d.replay.current = some c →
      let unmarked : Ring :=
        if c.marked then { d.ring with slots := d.ring.slots.modify c.slot fun x => { x with replay := false } } else d.ring
      let stopped : Dev := { d with
        ring := unmarked
        replay := { d.replay with
          current := some { c with stage := .ending .cancelled, marked := false }, fetcher := d.replay.fetcher.dropAll } }
      let flagged (e : Dev) : Dev := { e with replay := { e.replay with
        queue := e.replay.queue.map fun r => { r with cancelled := true } } }
      let offered (e : Dev) : Dev := (e.thenDo .replayEndOffer).answered 0x12 tag .done []
      let ended (entries : List Entry) : Dev := { d with
        ring := unmarked
        replay := { d.replay with queue := [], current := none, fetcher := d.replay.fetcher.dropAll }
        downlink := { d.downlink with ctrl := d.downlink.ctrl ++ entries } }
      let end₀ := Entry.replayEnd .cancelled c.req.tag c.req.frame c.linesSent
      ((∃ st, c.stage = .ending st) →
        (Ready (.cancelCurrent tag) ⟨d, q⟩ → exec (.cancelCurrent tag) ⟨d, q⟩ = .next ⟨offered d, q⟩) ∧
        (Ready (.cancelAll tag) ⟨d, q⟩ → exec (.cancelAll tag) ⟨d, q⟩ = .next ⟨offered (flagged d), q⟩)) ∧
      (c.stage = .waitingClose ∨ c.stage = .sending →
        (Ready (.cancelCurrent tag) ⟨d, q⟩ → exec (.cancelCurrent tag) ⟨d, q⟩ = .next ⟨offered stopped, q⟩ ∧
          (d.replay.queue = [] → exec (.cancelCurrent tag) ⟨d, q⟩ =
            .next ⟨(ended [end₀]).answered 0x12 tag .done [], q⟩)) ∧
        (Ready (.cancelAll tag) ⟨d, q⟩ → exec (.cancelAll tag) ⟨d, q⟩ = .next ⟨offered (flagged stopped), q⟩ ∧
          (d.downlink.ctrl.length + d.replay.queue.length < 64 → exec (.cancelAll tag) ⟨d, q⟩ =
            .next ⟨(ended (end₀ :: d.replay.queue.map fun r =>
              Entry.replayEnd .cancelled r.tag r.frame 0)).answered 0x12 tag .done [], q⟩)))

/-- HOLD: GONE for an absent frame, DONE for a held one, FULL at K − 3 held slots, else the frame's slot is held and the
hold count is one more (R94). RELEASE of a frame number: GONE when absent; else the held flag is cleared if set, the hold
count one less if it was, and DONE. RELEASE ALL clears every held flag and the hold count and is DONE. The slot keeps its
state and its frame, and a CLOSED one without a reader's mark may then be chosen by a capture (R95). -/
def Obligations.HoldAndReleaseOrders : Prop :=
  (∀ (d : Dev) (q : List Instr) (tag : Tag) (frame : FrameNo), Ready (.hold tag frame) ⟨d, q⟩ →
    (d.ring.lookup frame = none → exec (.hold tag frame) ⟨d, q⟩ = .next ⟨d.answered 0x13 tag .gone [], q⟩) ∧
    ∀ (i : Nat) (w : WorkingPlan), d.ring.lookup frame = some i → d.plan.working = some w →
      ((d.ring.slot i).held = true → exec (.hold tag frame) ⟨d, q⟩ = .next ⟨d.answered 0x13 tag .done [], q⟩) ∧
      ((d.ring.slot i).held = false → w.plan.slots - 3 ≤ d.ring.holdCount →
        exec (.hold tag frame) ⟨d, q⟩ = .next ⟨d.answered 0x13 tag .full [], q⟩) ∧
      ((d.ring.slot i).held = false → d.ring.holdCount < w.plan.slots - 3 → exec (.hold tag frame) ⟨d, q⟩ =
        .next ⟨Dev.answered 0x13 tag .done [] { d with ring := { d.ring with
          slots := d.ring.slots.modify i fun x => { x with held := true }
          holdCount := d.ring.holdCount + 1 } }, q⟩)) ∧
  ∀ (d : Dev) (q : List Instr) (tag : Tag) (frame : FrameNo),
    (Ready (.release tag frame) ⟨d, q⟩ →
      ((∀ x ∈ d.ring.slots, x.state = .empty ∨ x.frame ≠ frame) →
        exec (.release tag frame) ⟨d, q⟩ = .next ⟨d.answered 0x14 tag .gone [], q⟩) ∧
      ∀ (l r : List Slot) (x : Slot), d.ring.slots = l ++ x :: r → x.state ≠ .empty → x.frame = frame →
        (∀ y ∈ l, y.state = .empty ∨ y.frame ≠ frame) →
        (x.held = false → exec (.release tag frame) ⟨d, q⟩ = .next ⟨d.answered 0x14 tag .done [], q⟩) ∧
        (x.held = true → exec (.release tag frame) ⟨d, q⟩ = .next ⟨Dev.answered 0x14 tag .done [] { d with
          ring := { d.ring with slots := l ++ { x with held := false } :: r, holdCount := d.ring.holdCount - 1 } }, q⟩)) ∧
    (Ready (.releaseAll tag) ⟨d, q⟩ → exec (.releaseAll tag) ⟨d, q⟩ = .next ⟨Dev.answered 0x14 tag .done [] { d with
      ring := { d.ring with slots := d.ring.slots.map fun x => { x with held := false }, holdCount := 0 } }, q⟩) ∧
    (∀ x : Slot, x.state = .closed → x.live = false → x.replay = false →
      Slot.reusable { x with held := false } = true)

/-- CLEAR: every replay request ends CANCELLED (one in ENDING as it was), with its REPLAY-END offered as REPLAY_END_OFFER
offers it, before the RESPONSE, one for each request in their order where the control queue has room for all; the live
frames and the readers' lines are dropped and every mark goes; then every FILLING slot is force-closed without a report or a
count: its RUNNING tiles are STALLED with their missing rows damaged, it is CLOSED with the outcomes, and both contexts are
free; then every slot that is not held becomes EMPTY and leaves the age order, a held one stays, CLOSED; and the order is
DONE. The counter of frames, the gate and the hold count stay. That a request in ENDING loses its mark too is the model's
reading (log 33) (R68, R72, R96, R135, R140, R143, R171). -/
def Obligations.ClearOrders : Prop :=
  ∀ (d : Dev) (q : List Instr) (tag : Tag), Ready (.clear tag) ⟨d, q⟩ →
    let bare (x : Slot) : Slot := { x with live := false, replay := false }
    let e : Dev := { d with
      ring := { d.ring with slots := d.ring.slots.map bare }
      live := { active := none, waiting := none, rasterPtr := 0, strips := [], rotation := 0, handed := 0
                fetcher := d.live.fetcher.dropAll }
      replay := d.replay.allEnded }
    let f := e.thenDo .replayEndOffer
    let kept (x : Slot) : Slot := if x.held then x else Slot.vacant
    let age := d.ring.age.filter fun s => (d.ring.slot s).held
    (∀ w, d.plan.working = some w →
      let shut (i : CtxId) (slots : List Slot) : List Slot := match d.tracker.ctx i with
        | none => slots
        | some c => slots.modify c.slot fun x => { x with
            state := .closed
            outcomes := c.fronts.map fun g => if g.status = .finished then .finished else .stalled
            damage := x.damage.mapIdx fun t l => match c.fronts[t]? with
              | some g => if g.status = .running then
                  addRange (w.plan.rows (w.plan.tileAt t)) g.row (w.plan.rows (w.plan.tileAt t) - 1) l else l
              | none => l }
      exec (.clear tag) ⟨d, q⟩ = .next ⟨Dev.answered 0x15 tag .done [] { f with
        ring := { d.ring with slots := (shut .c1 (shut .c0 (d.ring.slots.map bare))).map kept, age := age }
        tracker := { d.tracker with
          ctx0 := none, ctx1 := none, order := d.tracker.order.filter fun i => (d.tracker.ctx i).isNone } }, q⟩) ∧
    (d.tracker.ctx0 = none → d.tracker.ctx1 = none → exec (.clear tag) ⟨d, q⟩ =
      .next ⟨Dev.answered 0x15 tag .done [] { f with ring := { d.ring with
        slots := d.ring.slots.map fun x => kept (bare x), age := age } }, q⟩) ∧
    (d.downlink.ctrl.length + d.replay.ends.length ≤ 64 → f = { e with
      replay := { d.replay with queue := [], current := none, fetcher := d.replay.fetcher.dropAll }
      downlink := { d.downlink with ctrl := d.downlink.ctrl ++ d.replay.ends } })

/-! ### Remote access and watches -/

/-- PAGE and POINT set the page and the pointer, or refuse a page above 1,023 and an address not below the memory size;
WATCH-CLEAR frees the entry of an id, also a FREE one, or refuses an id above 7. All run whatever REMOTE-EN and the parked
signal (R174, R186). -/
def Obligations.PagePointAndWatchClear : Prop :=
  ∀ (d : Dev) (q : List Instr) (tag : Tag) (n : BitVec 16) (addr : BitVec 40) (id : BitVec 8),
    (Ready (.page tag n) ⟨d, q⟩ → exec (.page tag n) ⟨d, q⟩ = .next ⟨if n.toNat ≤ 1023 then
      Dev.answered 0x30 tag .done [] { d with remote := { d.remote with page := n.truncate 10 } }
      else d.answered 0x30 tag .invalid [], q⟩) ∧
    (Ready (.point tag addr) ⟨d, q⟩ → exec (.point tag addr) ⟨d, q⟩ =
      .next ⟨if addr.toNat < MemSize.bytes d.mem.memSize then
        Dev.answered 0x31 tag .done [] { d with remote := { d.remote with pointer := addr.truncate 34 } }
        else d.answered 0x31 tag .range [], q⟩) ∧
    (Ready (.watchClear tag id) ⟨d, q⟩ → exec (.watchClear tag id) ⟨d, q⟩ = .next ⟨if id.toNat ≤ 7 then
      Dev.answered 0x21 tag .done [] { d with watch := { d.watch with table := d.watch.table.set id.toNat none } }
      else d.answered 0x21 tag .invalid [], q⟩)

/-- READ, WRITE, READ-NEXT, WRITE-NEXT, MASK-WRITE and WATCH-SET: the first check that fails, in the order DISABLED,
INVALID, RANGE, PARKED, answers the order and changes nothing else; when all pass the first request is presented, at page
× 2^24 + offset, at the pointer, or at the watch's address, and the executor goes on EXECUTING (R174, R175, R181). -/
def Obligations.MemoryOrdersAreChecked : Prop :=
  ∀ (d : Dev) (q : List Instr) (tag : Tag) (offset : BitVec 24) (count : BitVec 8) (bytes value mask : List Byte)
    (id len mode : BitVec 8) (addr : BitVec 40),
    let check (ok : Prop) [Decidable ok] (a n : Nat) : Option Status :=
      if d.remote.enabled = false then some .disabled else if ¬ok then some .invalid
      else if MemSize.bytes d.mem.memSize < a + n then some .range else if d.mem.parked then some .parked else none
    let out (kind : Byte) (st : Option Status) (o : MemOrder) (use : RemoteUse) (op : BusOp) :
        Host.Outcome State Fault Refusal :=
      .next ⟨match st with
        | some x => d.answered kind tag x []
        | none => d.presented kind tag o use op, q⟩
    let a := d.remote.page.toNat * 16777216 + offset.toNat
    let p := d.remote.pointer
    let n := count.toNat
    let how : WatchMode := if mode = 1 then .change else if mode = 2 then .once else .every
    (Ready (.read tag offset count) ⟨d, q⟩ → exec (.read tag offset count) ⟨d, q⟩ =
      out 0x32 (check (1 ≤ n ∧ n ≤ 8) a n) (.read n) .read (.read (BitVec.ofNat 34 a) n)) ∧
    (Ready (.write tag offset bytes) ⟨d, q⟩ → exec (.write tag offset bytes) ⟨d, q⟩ =
      out 0x33 (check True a bytes.length) (.write bytes.length) .write (.write (BitVec.ofNat 34 a) bytes)) ∧
    (Ready (.readNext tag count) ⟨d, q⟩ → exec (.readNext tag count) ⟨d, q⟩ =
      out 0x34 (check (1 ≤ n ∧ n ≤ 8) p.toNat n) (.readNext n) .read (.read p n)) ∧
    (Ready (.writeNext tag bytes) ⟨d, q⟩ → exec (.writeNext tag bytes) ⟨d, q⟩ =
      out 0x35 (check True p.toNat bytes.length) (.writeNext bytes.length) .write (.write p bytes)) ∧
    (Ready (.maskWrite tag offset value mask) ⟨d, q⟩ → exec (.maskWrite tag offset value mask) ⟨d, q⟩ =
      out 0x36 (check True a value.length) (.maskWrite a value mask none) .maskRead
        (.read (BitVec.ofNat 34 a) value.length)) ∧
    (Ready (.watchSet tag id addr len mode) ⟨d, q⟩ → exec (.watchSet tag id addr len mode) ⟨d, q⟩ =
      out 0x20 (check (id.toNat ≤ 7 ∧ (1 ≤ len.toNat ∧ len.toNat ≤ 8) ∧ mode.toNat ≤ 2) addr.toNat len.toNat)
        (.watchSet id.toNat addr.toNat len.toNat how) .seed (.read (addr.truncate 34) len.toNat))

/-- REMOTE_ACCESS_DONE ends a memory order: DONE with the bytes read, with the old bytes of a MASK-WRITE, or with none; a
NEXT order's pointer advances, mod 2^34; an error answers FAULT, counts, leaves the pointer, and for a write sets the FAULT
cause and adds the rows of its tracking handle to the damage lists of the tiles whose binding is still in force; for a read,
whose handle is empty, neither. The RESPONSE is admitted while an entry is free; where it finds the control queue full it is
held, the executor RESPONDING (R14, R64, R171, R177, R178, R179). -/
def Obligations.MemoryOrdersEnd : Prop :=
  ∀ (d : Dev) (q : List Instr) (t : Nat) (r : InFlight) (kind : Byte) (tag : Tag) (n : Nat) (bytes : List Byte),
    d.resetAsserted = false → d.mem.record t = some r →
    let e := { d with mem := { d.mem with inflight := d.mem.inflight.filter fun x => x.tag ≠ t } }
    let err := { e with
      counters := { d.counters with memoryErrors := satInc d.counters.memoryErrors }
      ring := { d.ring with slots := d.handleDamage r.handle } }
    let ends (f : Dev) (st : Status) (data : List Byte) : Host.Outcome State Fault Refusal :=
      .next ⟨f.responds kind tag st data, q⟩
    let moved (f : Dev) : Dev := { f with remote := { d.remote with pointer := d.remote.pointer + BitVec.ofNat 34 n } }
    let fails : Prop := ∃ rep, exec (.remoteAccessDone t .error) ⟨d, q⟩ = ends { err with report := rep } .fault [] ∧
      Report.CauseSet .fault d.report rep
    (r.owner = .remote .read → r.isWrite = false → r.len = bytes.length →
      (d.uplink.executor = .executing kind tag (.read n) →
        exec (.remoteAccessDone t (.data bytes)) ⟨d, q⟩ = ends e .done bytes ∧
        exec (.remoteAccessDone t .error) ⟨d, q⟩ = ends err .fault []) ∧
      (d.uplink.executor = .executing kind tag (.readNext n) →
        exec (.remoteAccessDone t (.data bytes)) ⟨d, q⟩ = ends (moved e) .done bytes ∧
        exec (.remoteAccessDone t .error) ⟨d, q⟩ = ends err .fault [])) ∧
    (r.handle = [] → err.ring = d.ring) ∧
    (r.owner = .remote .write → r.isWrite = true →
      (d.uplink.executor = .executing kind tag (.write n) →
        exec (.remoteAccessDone t .done) ⟨d, q⟩ = ends e .done [] ∧ fails) ∧
      (d.uplink.executor = .executing kind tag (.writeNext n) →
        exec (.remoteAccessDone t .done) ⟨d, q⟩ = ends (moved e) .done [] ∧ fails)) ∧
    (∀ (a : Nat) (value mask old : List Byte), r.owner = .remote .maskWrite → r.isWrite = true →
      d.uplink.executor = .executing kind tag (.maskWrite a value mask (some old)) →
      exec (.remoteAccessDone t .done) ⟨d, q⟩ = ends e .done old ∧ fails)

/-- MASK_WRITE_READ_DONE: with data the write of the new bytes is presented at the same address, bit by bit from the value
where the mask is set and from the old byte where it is clear; with an error no write is made, the port is freed, and the
order is answered FAULT without the attention cause. WATCH_SEED_DONE: with data the seeding record becomes the entry of its
id, known bytes that writes brought during the seeding kept, the reported value the seed; without such writes only the
RESPONSE follows; with them one hit is judged first, as of the last one's grant: EVERY and ONCE offer it, CHANGE only if the
known value differs from the seed, and ONCE frees the entry; the offer rewrites a WATCH entry of the id that waits, or is
appended with 17 entries free, or is dropped and counted, which leaves the reported value; with an error the record goes,
the entry under the id stays, and the order is FAULT. A RESPONSE that finds the control queue full is held
(R12, R14, R154, R155, R171, R179, R183, R184, R185). -/
def Obligations.FirstReadsEnd : Prop :=
  (∀ (d : Dev) (q : List Instr) (t a : Nat) (r : InFlight) (kind : Byte) (tag : Tag) (value mask old : List Byte),
    d.resetAsserted = false → d.mem.record t = some r → r.handle = [] → r.owner = .remote .maskRead →
    r.isWrite = false → d.uplink.executor = .executing kind tag (.maskWrite a value mask none) →
    let m := { d.mem with inflight := d.mem.inflight.filter fun x => x.tag ≠ t }
    (r.len = old.length → value.length = old.length → mask.length = old.length → ∃ new : List Byte,
      new.length = old.length ∧
      (∀ k b, (new.getD k 0).getLsbD b =
        if (mask.getD k 0).getLsbD b then (value.getD k 0).getLsbD b else (old.getD k 0).getLsbD b) ∧
      exec (.maskWriteReadDone t (.data old)) ⟨d, q⟩ = .next ⟨{ d with
        mem := m
        uplink := { d.uplink with executor := .executing kind tag (.maskWrite a value mask (some old)) }
        remote := { d.remote with req := some ⟨.maskWrite, .write (BitVec.ofNat 34 a) new⟩ } }, q⟩) ∧
    exec (.maskWriteReadDone t .error) ⟨d, q⟩ = .next ⟨Dev.responds kind tag .fault [] { d with
      mem := { m with portHeld := false }
      counters := { d.counters with memoryErrors := satInc d.counters.memoryErrors } }, q⟩) ∧
  ∀ (d : Dev) (q : List Instr) (t : Nat) (r : InFlight) (kind : Byte) (tag : Tag) (o : MemOrder) (sd : Seeding)
    (seed : List Byte), d.resetAsserted = false → d.mem.record t = some r → r.handle = [] → r.owner = .remote .seed →
    r.isWrite = false → r.len = seed.length → sd.known.length = seed.length →
    (∃ id a n mode, o = .watchSet id a n mode) → d.uplink.executor = .executing kind tag o →
    d.watch.seeding = some sd →
    let known := List.zipWith (fun (k : Option Byte) b => k.getD b) sd.known seed
    let e := { d with mem := { d.mem with inflight := d.mem.inflight.filter fun x => x.tag ≠ t } }
    let put (x : Option WatchEntry) : Watch := { table := d.watch.table.set sd.id x, seeding := none }
    let entry (reported : List Byte) : WatchEntry := ⟨sd.addr, sd.len, sd.mode, known, reported⟩
    let after (taken : Bool) : Watch :=
      put (if sd.mode = .once then none else some (entry (if taken then known else seed)))
    let ends (f : Dev) (st : Status) : Host.Outcome State Fault Refusal := .next ⟨f.responds kind tag st [], q⟩
    let run := exec (.watchSeedDone t (.data seed)) ⟨d, q⟩
    let offers := sd.mode ≠ .change ∨ known ≠ seed
    let waits := d.downlink.ctrl.any (Entry.isWatch sd.id)
    (sd.hits = 0 → run = ends { e with watch := put (some (entry seed)) } .done) ∧
    (∀ time, sd.hits ≠ 0 → sd.hitTime = some time →
      (¬offers → run = ends { e with watch := put (some (entry seed)) } .done) ∧
      (offers → waits = true → run = ends { e with
        watch := after true
        downlink := { d.downlink with ctrl := d.downlink.ctrl.map fun x =>
          match x with
          | .watch j v u n => if j = sd.id then .watch j known time (satInc n) else .watch j v u n
          | x => x } } .done) ∧
      (offers → waits = false → d.downlink.ctrl.length ≤ 47 → run = ends { e with
        watch := after true
        downlink := { d.downlink with ctrl := d.downlink.ctrl ++ [.watch sd.id known time 1] } } .done) ∧
      (offers → waits = false → 47 < d.downlink.ctrl.length → run = ends { e with
        watch := after false
        counters := { d.counters with droppedEntries := satInc d.counters.droppedEntries } } .done)) ∧
    exec (.watchSeedDone t .error) ⟨d, q⟩ = ends { e with
      watch := { d.watch with seeding := none }
      counters := { d.counters with memoryErrors := satInc d.counters.memoryErrors } } .fault

/-- A hit on an ARMED entry puts the bytes that fall in its window into the known value. EVERY offers each hit; CHANGE only
while the known value differs from the reported one; ONCE frees the entry; an offer that finds a WATCH entry of the id
waiting rewrites it in place and counts, one that 17 free entries admit is appended, any other is dropped and counted, and
only a taken offer becomes the reported value (R154, R155, R184, R185). -/
def Obligations.WatchHitsAreReported : Prop :=
  ∀ (d : Dev) (id a : Nat) (bytes : List Byte) (e : WatchEntry), d.watch.entry id = some e →
    e.known.length = e.len →
    let known := (List.range e.len).map fun k =>
      if a ≤ e.addr + k ∧ e.addr + k < a + bytes.length then bytes.getD (e.addr + k - a) 0 else e.known.getD k 0
    let set (x : Option WatchEntry) : Watch := { d.watch with table := d.watch.table.set id x }
    let after (taken : Bool) : Option WatchEntry :=
      if e.mode = .once then none
      else some { e with known := known, reported := if taken then known else e.reported }
    let offers := e.mode ≠ .change ∨ known ≠ e.reported
    let waits := d.downlink.ctrl.any (Entry.isWatch id)
    (¬offers → d.watchHit id a bytes = { d with watch := set (some { e with known := known }) }) ∧
    (offers → waits = true → d.watchHit id a bytes = { d with
      watch := set (after true)
      downlink := { d.downlink with ctrl := d.downlink.ctrl.map fun x =>
        match x with
        | .watch j v u n => if j = id then .watch j known d.timing.now (satInc n) else .watch j v u n
        | x => x } }) ∧
    (offers → waits = false → d.downlink.ctrl.length ≤ 47 → d.watchHit id a bytes = { d with
      watch := set (after true)
      downlink := { d.downlink with ctrl := d.downlink.ctrl ++ [.watch id known d.timing.now 1] } }) ∧
    (offers → waits = false → 47 < d.downlink.ctrl.length → d.watchHit id a bytes = { d with
      watch := set (after false)
      counters := { d.counters with droppedEntries := satInc d.counters.droppedEntries } })

/-! ### Offers, fetches, cells, drains -/

/-- RESPONSE_OFFER: a held RESPONSE is admitted once an entry is free, and the executor is IDLE; a full queue leaves it
held. REPLAY_END_OFFER: so with the REPLAY-END of a request in ENDING, whose mark goes and which ceases to be current; then
the next queued request becomes current and is started: a cancelled one, and one for an absent frame, is in ENDING at once,
and its REPLAY-END is offered likewise; for a FILLING frame it is in WAITING-CLOSE with that slot; for a CLOSED one the slot
is marked, and it is in SENDING with its first fetches begun. With no request left, and with one in WAITING-CLOSE or
SENDING, nothing more happens (R136, R138, R139, R140, R154, R171). What slot, next and last line hold before SENDING is the
model's choice and not stated (log 37). -/
def Obligations.HeldEntriesAreOffered : Prop :=
  ∀ (d : Dev) (q : List Instr), d.resetAsserted = false →
    let run := exec .replayEndOffer ⟨d, q⟩
    (∀ kind tag st data, d.uplink.executor = .responding (.response kind tag st data) →
      exec .responseOffer ⟨d, q⟩ = .next ⟨if d.downlink.ctrl.length < 64 then { d with
        uplink := { d.uplink with executor := .idle }
        downlink := { d.downlink with ctrl := d.downlink.ctrl ++ [.response kind tag st data] } } else d, q⟩) ∧
    (∀ c st, d.replay.current = some c → c.stage = .ending st →
      let freed : Dev := { d with
        ring := if c.marked then { d.ring with slots := d.ring.slots.modify c.slot fun x => { x with replay := false } }
          else d.ring
        replay := { d.replay with current := none }
        downlink := { d.downlink with
          ctrl := d.downlink.ctrl ++ [.replayEnd st c.req.tag c.req.frame c.linesSent] } }
      (64 ≤ d.downlink.ctrl.length → run = .next ⟨d, q⟩) ∧
      (d.downlink.ctrl.length < 64 → run = exec .replayEndOffer ⟨freed, q⟩ ∧
        (d.replay.queue = [] → run = .next ⟨freed, q⟩))) ∧
    (∀ c, d.replay.current = some c → (c.stage = .waitingClose ∨ c.stage = .sending) → run = .next ⟨d, q⟩) ∧
    (d.replay.current = none → d.replay.queue = [] → run = .next ⟨d, q⟩) ∧
    ∀ r rest, d.replay.current = none → d.replay.queue = r :: rest →
      let current (c : CurrentReq) : Dev := { d with replay := { d.replay with queue := rest, current := some c } }
      let idle (stage : Stage) (slot next last : Nat) : Dev := current
        { req := r, stage := stage, slot := slot, marked := false, nextLine := next, lastLine := last, linesSent := 0 }
      let ending (st : Status) : Prop :=
        ∃ slot next last, run = exec .replayEndOffer ⟨idle (.ending st) slot next last, q⟩
      (r.cancelled = true → ending .cancelled) ∧
      (r.cancelled = false → d.ring.lookup r.frame = none → ending .gone) ∧
      ∀ s, r.cancelled = false → d.ring.lookup r.frame = some s →
        ((d.ring.slot s).state = .filling → ∃ next last, run = .next ⟨idle .waitingClose s next last, q⟩) ∧
        ∀ w, (d.ring.slot s).state = .closed → d.plan.working = some w →
          let sending := current { req := r, stage := .sending, slot := s, marked := true, nextLine := r.first
                                   lastLine := if r.count = 0 then w.plan.height - 1
                                     else min (r.first + r.count - 1) (w.plan.height - 1)
                                   linesSent := 0 }
          run = .next ⟨Dev.fetchReplay { sending with
            ring := { d.ring with slots := d.ring.slots.modify s fun x => { x with replay := true } } }, q⟩

/-- LIVE_FETCH_BEGIN: in RASTER order the line at the pointer, in ARRIVAL order the next line of the strip chosen by turns,
goes to an EMPTY buffer if it may be sent, and else nothing happens; under TEST its bytes are (x + y + f) mod 256 and it is
READY at once. REPLAY_FETCH_BEGIN: the request's next line, for one credit if paced, and not without one. Neither begins
while a line of its reader is being fetched, without an EMPTY buffer, or without a frame or request to send
(R121, R128, R131, R132, R133, R139). That of two EMPTY buffers the first is taken is the model's choice (log 13). -/
def Obligations.FetchesBegin : Prop :=
  ∀ (d : Dev) (q : List Instr) (w : WorkingPlan), d.resetAsserted = false → d.plan.working = some w →
    let vacant (f : Fetcher) (i : BufId) : Prop := (f.bufA.state = .empty ∧ i = .a) ∨
      (f.bufA.state ≠ .empty ∧ f.bufB.state = .empty ∧ i = .b)
    let busy (f : Fetcher) : Prop := (f.bufA.state = .fetching ∧ f.bufA.discard = false) ∨
      (f.bufB.state = .fetching ∧ f.bufB.discard = false) ∨ (f.bufA.state ≠ .empty ∧ f.bufB.state ≠ .empty)
    (∀ s i, d.live.active = some s → vacant d.live.fetcher i → ¬busy d.live.fetcher → d.live.handed < w.plan.height →
      let begun (y : Nat) : Fetcher :=
        d.live.fetcher.begin_ w.plan (d.ring.slot s) s y (d.live.handed + 1 = w.plan.height) i
      (w.plan.order = .raster → w.plan.source = .test → exec .liveFetchBegin ⟨d, q⟩ = .next ⟨{ d with live := { d.live with
        rasterPtr := d.live.rasterPtr + 1
        handed := d.live.handed + 1
        fetcher := { d.live.fetcher.setBuf i
            { state := .ready, slot := s, frame := (d.ring.slot s).frame, line := d.live.rasterPtr
              concealed := false, test := true, last := d.live.handed + 1 = w.plan.height, nextCell := 0
              discard := false, outstanding := 0, todo := []
              data := (List.range (w.plan.width * w.plan.bpp)).map fun k =>
                BitVec.ofNat 8 (k / w.plan.bpp + d.live.rasterPtr + (d.ring.slot s).frame.toNat) } with
          order := d.live.fetcher.order ++ [i] } } }, q⟩) ∧
      (w.plan.order = .raster → w.plan.source = .sensor → exec .liveFetchBegin ⟨d, q⟩ = .next
        ⟨if d.sendable w.plan s d.live.rasterPtr then { d with live := { d.live with
          rasterPtr := d.live.rasterPtr + 1, handed := d.live.handed + 1, fetcher := begun d.live.rasterPtr } }
          else d, q⟩) ∧
      (w.plan.order = .arrival → exec .liveFetchBegin ⟨d, q⟩ = .next ⟨match d.arrivalChoice w.plan s with
        | none => d
        | some σ => { d with live := { d.live with
            strips := d.live.strips.modify σ fun g => { line := if (w.plan.stripAt σ).up then g.line - 1 else g.line + 1
                                                        remaining := g.remaining - 1 }
            rotation := if σ + 1 < w.plan.strips.length then σ + 1 else 0
            handed := d.live.handed + 1
            fetcher := begun (d.live.strips.getD σ { line := 0, remaining := 0 }).line } }, q⟩)) ∧
    (d.live.active = none ∨ busy d.live.fetcher ∨ w.plan.height ≤ d.live.handed →
      exec .liveFetchBegin ⟨d, q⟩ = .next ⟨d, q⟩) ∧
    (∀ c i, d.replay.current = some c → vacant d.replay.fetcher i → ¬busy d.replay.fetcher → c.stage = .sending →
      (c.nextLine ≤ c.lastLine → (c.req.paced = false ∨ 1 ≤ d.replay.credit) → exec .replayFetchBegin ⟨d, q⟩ =
        .next ⟨{ d with replay := { d.replay with
          current := some { c with nextLine := c.nextLine + 1 }
          credit := if c.req.paced then d.replay.credit - 1 else d.replay.credit
          fetcher := d.replay.fetcher.begin_ w.plan (d.ring.slot c.slot) c.slot c.nextLine
            (c.nextLine = c.lastLine) i } }, q⟩) ∧
      (c.lastLine < c.nextLine ∨ (c.req.paced = true ∧ d.replay.credit = 0) →
        exec .replayFetchBegin ⟨d, q⟩ = .next ⟨d, q⟩)) ∧
    (busy d.replay.fetcher ∨ (∀ c, d.replay.current = some c → c.stage ≠ .sending) →
      exec .replayFetchBegin ⟨d, q⟩ = .next ⟨d, q⟩)

/-- LINE_FETCH_RESPONSE for either reader: the bytes go to their places, or zeros with the concealed flag on an error; the
last response makes the buffer READY, an earlier one only counts; a discarded buffer takes no bytes and is EMPTY with the
last response, of data or an error; then the reader looks for lines to fetch (R14, R122, R123, R125, R131, R139). -/
def Obligations.FetchResponsesFillLines : Prop :=
  ∀ (d : Dev) (q : List Instr) (t : Nat) (r : InFlight) (rd : ReaderId) (i : BufId) (f : FetchReq) (bytes : List Byte),
    d.resetAsserted = false → d.mem.record t = some r → r.handle = [] → r.owner = .fetch rd i f →
    r.isWrite = false → r.len = bytes.length →
    let x := (d.fetcher rd).buf i
    let m := { d.mem with inflight := d.mem.inflight.filter fun y => y.tag ≠ t }
    let err := { d.counters with memoryErrors := satInc d.counters.memoryErrors }
    let put (c : Counters) (y : LineBuf) : Dev := match rd with
      | .live => Dev.fetchLive { d with
          mem := m, counters := c, live := { d.live with fetcher := d.live.fetcher.setBuf i y } }
      | .replay => Dev.fetchReplay { d with
          mem := m, counters := c, replay := { d.replay with fetcher := d.replay.fetcher.setBuf i y } }
    let last : Bool := x.todo.isEmpty && x.outstanding = 1 && (d.fetcher rd).req.all fun g => g.1 ≠ i
    let dropped : LineBuf := if x.outstanding ≤ 1 then .vacant else { x with outstanding := x.outstanding - 1 }
    (x.state = .fetching → x.discard = false → 1 ≤ x.outstanding →
      exec (.lineFetchResponse t (.data bytes)) ⟨d, q⟩ = .next ⟨put d.counters { x with
        outstanding := x.outstanding - 1, data := f.fill f.off bytes x.data
        state := if last then .ready else .fetching }, q⟩ ∧
      exec (.lineFetchResponse t .error) ⟨d, q⟩ = .next ⟨put err { x with
        outstanding := x.outstanding - 1, concealed := true
        data := f.fill f.off (List.replicate f.len 0) x.data
        state := if last then .ready else .fetching }, q⟩) ∧
    (x.state = .fetching → x.discard = true →
      exec (.lineFetchResponse t (.data bytes)) ⟨d, q⟩ = .next ⟨put d.counters dropped, q⟩ ∧
      exec (.lineFetchResponse t .error) ⟨d, q⟩ = .next ⟨put err dropped, q⟩) ∧
    (∀ e : Dev, e.resetAsserted = false → (e.plan.working = none ∨ e.live.active = none →
      e.fetchLive = e) ∧ (e.plan.working = none ∨ e.replay.current = none → e.fetchReplay = e))

/-- CELL_BOUNDARY, when it is reached: with nothing to carry a FILL cell. A CONTROL cell carries every entry, oldest first,
ECHO entries stamped with the boundary's head time: before any line at rank 1 (16 cells since the last, or 32 entries), and
after the lines at rank 4; the queue is then empty, and a held RESPONSE and a held REPLAY-END are admitted (which of the two
first is left free, log 12), the requests queued behind going on as with REPLAY_END_OFFER. With the live reader's head buffer READY or SENDING, and rank 1 not in force, the next cell of
its line, and else one of the replay reader's line likewise. The last cell of a line has its flag, and its buffer is EMPTY
and leaves the order: with a frame's last line the live mark goes and the waiting frame becomes active; with a request's last
line the request ends DONE, with its REPLAY-END; then the reader looks for lines to fetch. The sequence, the count and the
next boundary move (R103, R124, R134, R139, R140, R144, R145, R146, R148, R149, R150, R152, R153, R171). -/
def Obligations.CellsAreSent : Prop :=
  ∀ (d : Dev) (q : List Instr) (i : BufId) (rest : List BufId), d.resetAsserted = false →
    reached d.timing.now d.downlink.nextBoundary = true →
    let period := match d.downlink.rate with
      | .setting0 => 594
      | .setting1 => 297
      | .setting2 => 198
      | .setting3 => 148
    let moved (bytes : List Byte) (ctrl : List Entry) (since : Nat) : Downlink := { d.downlink with
      lineOut := some bytes, ctrl := ctrl, cellSeq := d.downlink.cellSeq + 1, sinceControl := since
      nextBoundary := d.downlink.nextBoundary + BitVec.ofNat 32 period }
    let plain (kind : CellKind) (len : Nat) : CellHeader :=
      { kind := kind, concealed := false, test := false, lastCell := false, lastLine := false
        seq := d.downlink.cellSeq, frame := 0, phase := 0, base := 0, line := 0, index := 0, cells := 0
        time := d.downlink.nextBoundary, payloadLen := len }
    let stamped := d.downlink.ctrl.flatMap fun e => Entry.bytes (match e with
      | .echo seq _ => .echo seq d.downlink.nextBoundary
      | e => e)
    let control := cellBytes (plain .control (16 * d.downlink.ctrl.length)) stamped
    let x := d.live.fetcher.buf i
    let y := d.replay.fetcher.buf i
    let line (kind : CellKind) (b : LineBuf) (fin : Bool) : List Byte :=
      let payload := (b.data.drop (b.nextCell * 1024)).take 1024
      cellBytes { plain kind payload.length with
        concealed := b.concealed, test := b.test, lastCell := fin, lastLine := b.last, frame := b.frame
        phase := (d.ring.slot b.slot).phase, base := (d.ring.slot b.slot).base, line := b.line
        index := b.nextCell, cells := (b.data.length + 1023) / 1024 } payload
    let carried (kind : CellKind) (b : LineBuf) (fin : Bool) : Downlink :=
      moved (line kind b fin) d.downlink.ctrl (min 16 (d.downlink.sinceControl + 1))
    let atEnd (b : LineBuf) : Prop := b.nextCell + 1 = (b.data.length + 1023) / 1024
    let emptied (f : Fetcher) : Fetcher := { f.setBuf i .vacant with order := f.order.filter (· ≠ i) }
    let unmarked (f : Slot → Slot) (s : Nat) : Ring := { d.ring with slots := d.ring.slots.modify s f }
    let low := d.downlink.ctrl = [] ∨ (d.downlink.sinceControl ≠ 16 ∧ d.downlink.ctrl.length < 32)
    let first := d.downlink.sinceControl = 16 ∨ 32 ≤ d.downlink.ctrl.length
    (d.downlink.ctrl = [] → d.live.fetcher.order = [] → d.replay.fetcher.order = [] →
      exec .cellBoundary ⟨d, q⟩ = .next ⟨{ d with
        downlink := moved (cellBytes (plain .fill 0) []) [] (min 16 (d.downlink.sinceControl + 1)) }, q⟩) ∧
    (d.downlink.ctrl ≠ [] → first ∨ (d.live.fetcher.order = [] ∧ d.replay.fetcher.order = []) →
      ((∀ e, d.uplink.executor ≠ .responding e) → exec .cellBoundary ⟨d, q⟩ =
        .next ⟨Dev.thenDo .replayEndOffer { d with downlink := moved control [] 0 }, q⟩) ∧
      (∀ e, d.uplink.executor = .responding e →
        let sent := { d with freeCount := d.freeCount + 1, downlink := moved control [] 0 }
        exec .cellBoundary ⟨d, q⟩ = .next ⟨(sent.thenDo .responseOffer).thenDo .replayEndOffer, q⟩ ∨
        exec .cellBoundary ⟨d, q⟩ = .next ⟨(sent.thenDo .replayEndOffer).thenDo .responseOffer, q⟩)) ∧
    (d.downlink.ctrl ≠ [] → first ∨ (d.live.fetcher.order = [] ∧ d.replay.fetcher.order = []) → d.replay.queue = [] →
      ((∀ c st, d.replay.current = some c → c.stage ≠ .ending st) → (∀ e, d.uplink.executor ≠ .responding e) →
        exec .cellBoundary ⟨d, q⟩ = .next ⟨{ d with downlink := moved control [] 0 }, q⟩) ∧
      (∀ kind tag st data, (∀ c st, d.replay.current = some c → c.stage ≠ .ending st) →
        d.uplink.executor = .responding (.response kind tag st data) → exec .cellBoundary ⟨d, q⟩ = .next ⟨{ d with
          freeCount := d.freeCount + 1
          uplink := { d.uplink with executor := .idle }
          downlink := moved control [.response kind tag st data] 0 }, q⟩) ∧
      (∀ c st, d.replay.current = some c → c.stage = .ending st →
        let freed := if c.marked then unmarked (fun s => { s with replay := false }) c.slot else d.ring
        let entry := Entry.replayEnd st c.req.tag c.req.frame c.linesSent
        ((∀ e, d.uplink.executor ≠ .responding e) → exec .cellBoundary ⟨d, q⟩ = .next ⟨{ d with
          ring := freed, replay := { d.replay with current := none }, downlink := moved control [entry] 0 }, q⟩) ∧
        ∀ kind tag st data, d.uplink.executor = .responding (.response kind tag st data) → ∃ entries,
          (entries = [entry, .response kind tag st data] ∨ entries = [.response kind tag st data, entry]) ∧
          exec .cellBoundary ⟨d, q⟩ = .next ⟨{ d with
            freeCount := d.freeCount + 1
            uplink := { d.uplink with executor := .idle }
            ring := freed, replay := { d.replay with current := none }, downlink := moved control entries 0 }, q⟩)) ∧
    (d.live.fetcher.order = i :: rest → (x.state = .ready ∨ x.state = .sending) → low →
      (¬atEnd x → exec .cellBoundary ⟨d, q⟩ = .next ⟨{ d with
        downlink := carried .live x false
        live := { d.live with fetcher := d.live.fetcher.setBuf i { x with
          state := .sending, nextCell := x.nextCell + 1 } } }, q⟩) ∧
      (∀ w, d.plan.working = some w → atEnd x →
        let l := { d.live with fetcher := emptied d.live.fetcher }
        let gone (s : Nat) := unmarked (fun z => { z with live := false }) s
        (x.last = false → exec .cellBoundary ⟨d, q⟩ =
          .next ⟨Dev.fetchLive { d with downlink := carried .live x true, live := l }, q⟩) ∧
        (∀ s, x.last = true → d.live.active = some s → d.live.waiting = none → exec .cellBoundary ⟨d, q⟩ =
          .next ⟨{ d with downlink := carried .live x true, ring := gone s, live := { l with active := none } }, q⟩) ∧
        (∀ s v, x.last = true → d.live.active = some s → d.live.waiting = some v → exec .cellBoundary ⟨d, q⟩ =
          .next ⟨Dev.fetchLive { d with
            downlink := carried .live x true
            ring := gone s
            live := if w.plan.order = .raster then { l with active := some v, waiting := none, handed := 0, rasterPtr := 0 }
              else { l with
                active := some v, waiting := none, handed := 0, rotation := 0
                strips := w.plan.strips.map fun (σ : Strip) =>
                  { line := if σ.up then σ.first + σ.height - 1 else σ.first, remaining := σ.height } } }, q⟩))) ∧
    (d.live.fetcher.offers = false → d.replay.fetcher.order = i :: rest → (y.state = .ready ∨ y.state = .sending) → low →
      (¬atEnd y → exec .cellBoundary ⟨d, q⟩ = .next ⟨{ d with
        downlink := carried .replay y false
        replay := { d.replay with fetcher := d.replay.fetcher.setBuf i { y with
          state := .sending, nextCell := y.nextCell + 1 } } }, q⟩) ∧
      (∀ c, d.replay.current = some c → atEnd y →
        let sent := { d.replay with fetcher := emptied d.replay.fetcher }
        (y.last = false → exec .cellBoundary ⟨d, q⟩ = .next ⟨Dev.fetchReplay { d with
          downlink := carried .replay y true
          replay := { sent with current := some { c with linesSent := c.linesSent + 1 } } }, q⟩) ∧
        (y.last = true → exec .cellBoundary ⟨d, q⟩ = .next ⟨Dev.thenDo .replayEndOffer { d with
          downlink := carried .replay y true
          replay := { sent with current := some { c with stage := .ending .done, linesSent := c.linesSent + 1 } } }, q⟩) ∧
        (y.last = true → d.replay.queue = [] → exec .cellBoundary ⟨d, q⟩ = .next ⟨{ d with
          ring := if c.marked then unmarked (fun z => { z with replay := false }) c.slot else d.ring
          replay := { sent with current := none }
          downlink := { carried .replay y true with ctrl := d.downlink.ctrl ++
            [.replayEnd .done c.req.tag c.req.frame (c.linesSent + 1)] } }, q⟩)))

/-- The cells-since-control count: a boundary that carries a CONTROL cell sets it to 0, one that carries any other kind adds
one up to 16, device reset sets it to 0, and no other command moves it (R147). -/
def Obligations.CellsSinceControl : Prop :=
  ∀ (c : Instr) (d : Dev) (q : List Instr) (t : State), exec c ⟨d, q⟩ = .next t →
    ((∀ straps, c ≠ .deviceReset straps) → c ≠ .cellBoundary →
      t.dev.downlink.sinceControl = d.downlink.sinceControl) ∧
    (∀ straps, c = .deviceReset straps → t.dev.downlink.sinceControl = 0) ∧
    (c = .cellBoundary → d.resetAsserted = false → reached d.timing.now d.downlink.nextBoundary = true →
      t.dev.downlink.sinceControl =
        if d.cellKind = .control then 0 else if 16 ≤ d.downlink.sinceControl then 16 else d.downlink.sinceControl + 1) ∧
    (d.downlink.sinceControl ≤ 16 → t.dev.downlink.sinceControl ≤ 16)

/-- DRAIN_WRITE_BEGIN presents, with none in hand and a ring in force, a write at P of the least of the FIFO's fill, 256,
the bytes to the ring end and the room, and nothing when that is 0. DRAIN_WRITE_DONE moves P past a completed write,
around the ring end, and hands it to the report writer; an error leaves P, counts, and sets FAULT; a write granted before
the ring changed leaves P. Then the next drain write begins, if one may (R14, R35, R189, R190, R193). -/
def Obligations.DrainWrites : Prop :=
  ∀ (d : Dev) (q : List Instr) (t n : Nat) (r : InFlight), d.resetAsserted = false →
    let size := d.feed.stop - d.feed.start
    let len := min (min d.feed.fifo.length 256) (min (d.feed.stop - d.feed.producer)
      (size - 64 - (d.feed.producer + size - d.feed.consumer) % size))
    let e := { d with
      mem := { d.mem with inflight := d.mem.inflight.filter fun x => x.tag ≠ t }
      feed := { d.feed with drain := .none } }
    let p := if d.feed.producer + n = d.feed.stop then d.feed.start else d.feed.producer + n
    (d.feed.drain = .none → d.feed.start < d.feed.stop → 1 ≤ len → exec .drainWriteBegin ⟨d, q⟩ =
      .next ⟨{ d with feed := { d.feed with drain := .presented d.feed.producer len } }, q⟩) ∧
    (d.feed.drain ≠ .none ∨ d.feed.stop ≤ d.feed.start ∨ len = 0 → exec .drainWriteBegin ⟨d, q⟩ = .next ⟨d, q⟩) ∧
    (d.mem.record t = some r → r.handle = [] → r.owner = .feed → r.isWrite = true →
      (d.feed.drain = .granted n false → ∃ rep, exec (.drainWriteDone t .done) ⟨d, q⟩ = .next ⟨Dev.thenDo .drainWriteBegin
          { e with feed := { e.feed with producer := p }, report := rep }, q⟩ ∧ rep.producer = some p ∧
        (rep.producerWanted = true ∨ rep.presented = some .producerWord) ∧
        rep.causes = d.report.causes ∧ rep.writing = d.report.writing ∧ rep.recordDue = d.report.recordDue) ∧
      (d.feed.drain = .granted n true → exec (.drainWriteDone t .done) ⟨d, q⟩ =
        .next ⟨Dev.thenDo .drainWriteBegin e, q⟩) ∧
      (∀ stale, d.feed.drain = .granted n stale → ∃ rep, exec (.drainWriteDone t .error) ⟨d, q⟩ =
        .next ⟨Dev.thenDo .drainWriteBegin { e with
          counters := { d.counters with memoryErrors := satInc d.counters.memoryErrors }
          report := rep }, q⟩ ∧ Report.CauseSet .fault d.report rep))
end

