-- ==== Sys2Proof/Laws/FramesA.lean ====
section
/-! SUPPORT. What the operations of Ops, Flags, Readers, Tracker and Feed leave alone: every part of the block that an operation does not name. -/

namespace Sys2Proof.Machine

/-- What `count` leaves alone. -/
@[simp] theorem Dev.count_frame (f : Counters → Counters) (d : Dev) :
    (Dev.count f d).resetAsserted = d.resetAsserted ∧
    (Dev.count f d).mem = d.mem ∧
    (Dev.count f d).plan = d.plan ∧
    (Dev.count f d).report = d.report ∧
    (Dev.count f d).tracker = d.tracker ∧
    (Dev.count f d).ring = d.ring ∧
    (Dev.count f d).timing = d.timing ∧
    (Dev.count f d).live = d.live ∧
    (Dev.count f d).replay = d.replay ∧
    (Dev.count f d).downlink = d.downlink ∧
    (Dev.count f d).uplink = d.uplink ∧
    (Dev.count f d).remote = d.remote ∧
    (Dev.count f d).watch = d.watch ∧
    (Dev.count f d).feed = d.feed ∧
    (Dev.count f d).freeCount = d.freeCount := by
  simp [Dev.count]

/-- What `startRecord` leaves alone. -/
@[simp] theorem Dev.startRecord_frame (d : Dev) :
    (Dev.startRecord d).resetAsserted = d.resetAsserted ∧
    (Dev.startRecord d).mem = d.mem ∧
    (Dev.startRecord d).plan = d.plan ∧
    (Dev.startRecord d).counters = d.counters ∧
    (Dev.startRecord d).tracker = d.tracker ∧
    (Dev.startRecord d).ring = d.ring ∧
    (Dev.startRecord d).timing = d.timing ∧
    (Dev.startRecord d).live = d.live ∧
    (Dev.startRecord d).replay = d.replay ∧
    (Dev.startRecord d).downlink = d.downlink ∧
    (Dev.startRecord d).uplink = d.uplink ∧
    (Dev.startRecord d).remote = d.remote ∧
    (Dev.startRecord d).watch = d.watch ∧
    (Dev.startRecord d).feed = d.feed ∧
    (Dev.startRecord d).freeCount = d.freeCount := by
  simp [Dev.startRecord]

/-- What `recordDue` leaves alone. -/
@[simp] theorem Dev.recordDue_frame (d : Dev) :
    (Dev.recordDue d).resetAsserted = d.resetAsserted ∧
    (Dev.recordDue d).mem = d.mem ∧
    (Dev.recordDue d).plan = d.plan ∧
    (Dev.recordDue d).counters = d.counters ∧
    (Dev.recordDue d).tracker = d.tracker ∧
    (Dev.recordDue d).ring = d.ring ∧
    (Dev.recordDue d).timing = d.timing ∧
    (Dev.recordDue d).live = d.live ∧
    (Dev.recordDue d).replay = d.replay ∧
    (Dev.recordDue d).downlink = d.downlink ∧
    (Dev.recordDue d).uplink = d.uplink ∧
    (Dev.recordDue d).remote = d.remote ∧
    (Dev.recordDue d).watch = d.watch ∧
    (Dev.recordDue d).feed = d.feed ∧
    (Dev.recordDue d).freeCount = d.freeCount := by
  unfold Dev.recordDue
  (repeat' split) <;> simp

/-- What `handProducer` leaves alone. -/
@[simp] theorem Dev.handProducer_frame (p : Nat) (d : Dev) :
    (Dev.handProducer p d).resetAsserted = d.resetAsserted ∧
    (Dev.handProducer p d).mem = d.mem ∧
    (Dev.handProducer p d).plan = d.plan ∧
    (Dev.handProducer p d).counters = d.counters ∧
    (Dev.handProducer p d).tracker = d.tracker ∧
    (Dev.handProducer p d).ring = d.ring ∧
    (Dev.handProducer p d).timing = d.timing ∧
    (Dev.handProducer p d).live = d.live ∧
    (Dev.handProducer p d).replay = d.replay ∧
    (Dev.handProducer p d).downlink = d.downlink ∧
    (Dev.handProducer p d).uplink = d.uplink ∧
    (Dev.handProducer p d).remote = d.remote ∧
    (Dev.handProducer p d).watch = d.watch ∧
    (Dev.handProducer p d).feed = d.feed ∧
    (Dev.handProducer p d).freeCount = d.freeCount := by
  unfold Dev.handProducer
  dsimp only
  (repeat' split) <;> simp

/-- What `enqueue` leaves alone. -/
@[simp] theorem Dev.enqueue_frame (e : Entry) (d : Dev) :
    (Dev.enqueue e d).resetAsserted = d.resetAsserted ∧
    (Dev.enqueue e d).mem = d.mem ∧
    (Dev.enqueue e d).plan = d.plan ∧
    (Dev.enqueue e d).report = d.report ∧
    (Dev.enqueue e d).counters = d.counters ∧
    (Dev.enqueue e d).tracker = d.tracker ∧
    (Dev.enqueue e d).ring = d.ring ∧
    (Dev.enqueue e d).timing = d.timing ∧
    (Dev.enqueue e d).live = d.live ∧
    (Dev.enqueue e d).replay = d.replay ∧
    (Dev.enqueue e d).uplink = d.uplink ∧
    (Dev.enqueue e d).remote = d.remote ∧
    (Dev.enqueue e d).watch = d.watch ∧
    (Dev.enqueue e d).feed = d.feed ∧
    (Dev.enqueue e d).freeCount = d.freeCount := by
  simp [Dev.enqueue]

/-- What `dropEntry` leaves alone. -/
@[simp] theorem Dev.dropEntry_frame (d : Dev) :
    (Dev.dropEntry d).resetAsserted = d.resetAsserted ∧
    (Dev.dropEntry d).mem = d.mem ∧
    (Dev.dropEntry d).plan = d.plan ∧
    (Dev.dropEntry d).report = d.report ∧
    (Dev.dropEntry d).tracker = d.tracker ∧
    (Dev.dropEntry d).ring = d.ring ∧
    (Dev.dropEntry d).timing = d.timing ∧
    (Dev.dropEntry d).live = d.live ∧
    (Dev.dropEntry d).replay = d.replay ∧
    (Dev.dropEntry d).downlink = d.downlink ∧
    (Dev.dropEntry d).uplink = d.uplink ∧
    (Dev.dropEntry d).remote = d.remote ∧
    (Dev.dropEntry d).watch = d.watch ∧
    (Dev.dropEntry d).feed = d.feed ∧
    (Dev.dropEntry d).freeCount = d.freeCount := by
  simp [Dev.dropEntry]

/-- What `offer` leaves alone. -/
@[simp] theorem Dev.offer_frame (e : Entry) (d : Dev) :
    (Dev.offer e d).resetAsserted = d.resetAsserted ∧
    (Dev.offer e d).mem = d.mem ∧
    (Dev.offer e d).plan = d.plan ∧
    (Dev.offer e d).report = d.report ∧
    (Dev.offer e d).tracker = d.tracker ∧
    (Dev.offer e d).ring = d.ring ∧
    (Dev.offer e d).timing = d.timing ∧
    (Dev.offer e d).live = d.live ∧
    (Dev.offer e d).replay = d.replay ∧
    (Dev.offer e d).uplink = d.uplink ∧
    (Dev.offer e d).remote = d.remote ∧
    (Dev.offer e d).watch = d.watch ∧
    (Dev.offer e d).feed = d.feed ∧
    (Dev.offer e d).freeCount = d.freeCount := by
  unfold Dev.offer
  (repeat' split) <;> simp

/-- What `offerWatch` leaves alone. -/
@[simp] theorem Dev.offerWatch_frame (id : Nat) (value : List Byte) (time : HeadTime) (d : Dev) :
    ((Dev.offerWatch id value time d).1).resetAsserted = d.resetAsserted ∧
    ((Dev.offerWatch id value time d).1).mem = d.mem ∧
    ((Dev.offerWatch id value time d).1).plan = d.plan ∧
    ((Dev.offerWatch id value time d).1).report = d.report ∧
    ((Dev.offerWatch id value time d).1).tracker = d.tracker ∧
    ((Dev.offerWatch id value time d).1).ring = d.ring ∧
    ((Dev.offerWatch id value time d).1).timing = d.timing ∧
    ((Dev.offerWatch id value time d).1).live = d.live ∧
    ((Dev.offerWatch id value time d).1).replay = d.replay ∧
    ((Dev.offerWatch id value time d).1).uplink = d.uplink ∧
    ((Dev.offerWatch id value time d).1).remote = d.remote ∧
    ((Dev.offerWatch id value time d).1).watch = d.watch ∧
    ((Dev.offerWatch id value time d).1).feed = d.feed ∧
    ((Dev.offerWatch id value time d).1).freeCount = d.freeCount := by
  unfold Dev.offerWatch
  (repeat' split) <;> simp

/-- What `updSlot` leaves alone. -/
@[simp] theorem Dev.updSlot_frame (s : Nat) (f : Slot → Slot) (d : Dev) :
    (Dev.updSlot s f d).resetAsserted = d.resetAsserted ∧
    (Dev.updSlot s f d).mem = d.mem ∧
    (Dev.updSlot s f d).plan = d.plan ∧
    (Dev.updSlot s f d).report = d.report ∧
    (Dev.updSlot s f d).counters = d.counters ∧
    (Dev.updSlot s f d).tracker = d.tracker ∧
    (Dev.updSlot s f d).timing = d.timing ∧
    (Dev.updSlot s f d).live = d.live ∧
    (Dev.updSlot s f d).replay = d.replay ∧
    (Dev.updSlot s f d).downlink = d.downlink ∧
    (Dev.updSlot s f d).uplink = d.uplink ∧
    (Dev.updSlot s f d).remote = d.remote ∧
    (Dev.updSlot s f d).watch = d.watch ∧
    (Dev.updSlot s f d).feed = d.feed ∧
    (Dev.updSlot s f d).freeCount = d.freeCount := by
  simp [Dev.updSlot]

/-- What `mark` leaves alone. -/
@[simp] theorem Dev.mark_frame (r : ReaderId) (s : Nat) (d : Dev) :
    (Dev.mark r s d).resetAsserted = d.resetAsserted ∧
    (Dev.mark r s d).mem = d.mem ∧
    (Dev.mark r s d).plan = d.plan ∧
    (Dev.mark r s d).report = d.report ∧
    (Dev.mark r s d).counters = d.counters ∧
    (Dev.mark r s d).tracker = d.tracker ∧
    (Dev.mark r s d).timing = d.timing ∧
    (Dev.mark r s d).live = d.live ∧
    (Dev.mark r s d).replay = d.replay ∧
    (Dev.mark r s d).downlink = d.downlink ∧
    (Dev.mark r s d).uplink = d.uplink ∧
    (Dev.mark r s d).remote = d.remote ∧
    (Dev.mark r s d).watch = d.watch ∧
    (Dev.mark r s d).feed = d.feed ∧
    (Dev.mark r s d).freeCount = d.freeCount := by
  unfold Dev.mark
  (repeat' split) <;> simp

/-- What `unmark` leaves alone. -/
@[simp] theorem Dev.unmark_frame (r : ReaderId) (s : Nat) (d : Dev) :
    (Dev.unmark r s d).resetAsserted = d.resetAsserted ∧
    (Dev.unmark r s d).mem = d.mem ∧
    (Dev.unmark r s d).plan = d.plan ∧
    (Dev.unmark r s d).report = d.report ∧
    (Dev.unmark r s d).counters = d.counters ∧
    (Dev.unmark r s d).tracker = d.tracker ∧
    (Dev.unmark r s d).timing = d.timing ∧
    (Dev.unmark r s d).live = d.live ∧
    (Dev.unmark r s d).replay = d.replay ∧
    (Dev.unmark r s d).downlink = d.downlink ∧
    (Dev.unmark r s d).uplink = d.uplink ∧
    (Dev.unmark r s d).remote = d.remote ∧
    (Dev.unmark r s d).watch = d.watch ∧
    (Dev.unmark r s d).feed = d.feed ∧
    (Dev.unmark r s d).freeCount = d.freeCount := by
  unfold Dev.unmark
  (repeat' split) <;> simp

/-- What `setCause` leaves alone. -/
@[simp] theorem Dev.setCause_frame (c : Cause) (d : Dev) :
    (Dev.setCause c d).resetAsserted = d.resetAsserted ∧
    (Dev.setCause c d).mem = d.mem ∧
    (Dev.setCause c d).plan = d.plan ∧
    (Dev.setCause c d).counters = d.counters ∧
    (Dev.setCause c d).tracker = d.tracker ∧
    (Dev.setCause c d).ring = d.ring ∧
    (Dev.setCause c d).timing = d.timing ∧
    (Dev.setCause c d).live = d.live ∧
    (Dev.setCause c d).replay = d.replay ∧
    (Dev.setCause c d).downlink = d.downlink ∧
    (Dev.setCause c d).uplink = d.uplink ∧
    (Dev.setCause c d).remote = d.remote ∧
    (Dev.setCause c d).watch = d.watch ∧
    (Dev.setCause c d).feed = d.feed ∧
    (Dev.setCause c d).freeCount = d.freeCount := by
  unfold Dev.setCause
  (repeat' split) <;> simp

/-- What `updFetcher` leaves alone. -/
@[simp] theorem Dev.updFetcher_frame (r : ReaderId) (f : Fetcher → Fetcher) (d : Dev) :
    (Dev.updFetcher r f d).resetAsserted = d.resetAsserted ∧
    (Dev.updFetcher r f d).mem = d.mem ∧
    (Dev.updFetcher r f d).plan = d.plan ∧
    (Dev.updFetcher r f d).report = d.report ∧
    (Dev.updFetcher r f d).counters = d.counters ∧
    (Dev.updFetcher r f d).tracker = d.tracker ∧
    (Dev.updFetcher r f d).ring = d.ring ∧
    (Dev.updFetcher r f d).timing = d.timing ∧
    (Dev.updFetcher r f d).downlink = d.downlink ∧
    (Dev.updFetcher r f d).uplink = d.uplink ∧
    (Dev.updFetcher r f d).remote = d.remote ∧
    (Dev.updFetcher r f d).watch = d.watch ∧
    (Dev.updFetcher r f d).feed = d.feed ∧
    (Dev.updFetcher r f d).freeCount = d.freeCount := by
  unfold Dev.updFetcher
  (repeat' split) <;> simp

/-- What `liveBegin?` leaves alone. -/
theorem Dev.liveBegin?_frame {d e : Dev} (h : d.liveBegin? = some e) :
    e.resetAsserted = d.resetAsserted ∧
    e.mem = d.mem ∧
    e.plan = d.plan ∧
    e.report = d.report ∧
    e.counters = d.counters ∧
    e.tracker = d.tracker ∧
    e.ring = d.ring ∧
    e.timing = d.timing ∧
    e.replay = d.replay ∧
    e.downlink = d.downlink ∧
    e.uplink = d.uplink ∧
    e.remote = d.remote ∧
    e.watch = d.watch ∧
    e.feed = d.feed ∧
    e.freeCount = d.freeCount := by
  unfold Dev.liveBegin? at h
  (repeat' split at h) <;> first | (cases h; simp) | cases h

/-- What `liveExamine` leaves alone. -/
@[simp] theorem Dev.liveExamine_frame (d : Dev) :
    (Dev.liveExamine d).resetAsserted = d.resetAsserted ∧
    (Dev.liveExamine d).mem = d.mem ∧
    (Dev.liveExamine d).plan = d.plan ∧
    (Dev.liveExamine d).report = d.report ∧
    (Dev.liveExamine d).counters = d.counters ∧
    (Dev.liveExamine d).tracker = d.tracker ∧
    (Dev.liveExamine d).ring = d.ring ∧
    (Dev.liveExamine d).timing = d.timing ∧
    (Dev.liveExamine d).replay = d.replay ∧
    (Dev.liveExamine d).downlink = d.downlink ∧
    (Dev.liveExamine d).uplink = d.uplink ∧
    (Dev.liveExamine d).remote = d.remote ∧
    (Dev.liveExamine d).watch = d.watch ∧
    (Dev.liveExamine d).feed = d.feed ∧
    (Dev.liveExamine d).freeCount = d.freeCount := by
  unfold Dev.liveExamine
  cases h : d.liveBegin? with
  | none => simp
  | some e =>
    cases h' : e.liveBegin? with
    | none => simpa [h'] using Dev.liveBegin?_frame h
    | some k =>
      have h1 := Dev.liveBegin?_frame h
      have h2 := Dev.liveBegin?_frame h'
      simp only [h', Option.getD_some, h2, h1, and_self]

/-- What `liveOffer` leaves alone. -/
@[simp] theorem Dev.liveOffer_frame (p : Plan) (s : Nat) (d : Dev) :
    (Dev.liveOffer p s d).resetAsserted = d.resetAsserted ∧
    (Dev.liveOffer p s d).mem = d.mem ∧
    (Dev.liveOffer p s d).plan = d.plan ∧
    (Dev.liveOffer p s d).report = d.report ∧
    (Dev.liveOffer p s d).tracker = d.tracker ∧
    (Dev.liveOffer p s d).timing = d.timing ∧
    (Dev.liveOffer p s d).replay = d.replay ∧
    (Dev.liveOffer p s d).downlink = d.downlink ∧
    (Dev.liveOffer p s d).uplink = d.uplink ∧
    (Dev.liveOffer p s d).remote = d.remote ∧
    (Dev.liveOffer p s d).watch = d.watch ∧
    (Dev.liveOffer p s d).feed = d.feed ∧
    (Dev.liveOffer p s d).freeCount = d.freeCount := by
  unfold Dev.liveOffer
  dsimp only
  (repeat' split) <;> simp

/-- What `liveDone` leaves alone. -/
@[simp] theorem Dev.liveDone_frame (p : Plan) (d : Dev) :
    (Dev.liveDone p d).resetAsserted = d.resetAsserted ∧
    (Dev.liveDone p d).mem = d.mem ∧
    (Dev.liveDone p d).plan = d.plan ∧
    (Dev.liveDone p d).report = d.report ∧
    (Dev.liveDone p d).counters = d.counters ∧
    (Dev.liveDone p d).tracker = d.tracker ∧
    (Dev.liveDone p d).timing = d.timing ∧
    (Dev.liveDone p d).replay = d.replay ∧
    (Dev.liveDone p d).downlink = d.downlink ∧
    (Dev.liveDone p d).uplink = d.uplink ∧
    (Dev.liveDone p d).remote = d.remote ∧
    (Dev.liveDone p d).watch = d.watch ∧
    (Dev.liveDone p d).feed = d.feed ∧
    (Dev.liveDone p d).freeCount = d.freeCount := by
  unfold Dev.liveDone
  dsimp only
  (repeat' split) <;> simp

/-- What `liveLineSent` leaves alone. -/
@[simp] theorem Dev.liveLineSent_frame (p : Plan) (last : Bool) (d : Dev) :
    (Dev.liveLineSent p last d).resetAsserted = d.resetAsserted ∧
    (Dev.liveLineSent p last d).mem = d.mem ∧
    (Dev.liveLineSent p last d).plan = d.plan ∧
    (Dev.liveLineSent p last d).report = d.report ∧
    (Dev.liveLineSent p last d).counters = d.counters ∧
    (Dev.liveLineSent p last d).tracker = d.tracker ∧
    (Dev.liveLineSent p last d).timing = d.timing ∧
    (Dev.liveLineSent p last d).replay = d.replay ∧
    (Dev.liveLineSent p last d).downlink = d.downlink ∧
    (Dev.liveLineSent p last d).uplink = d.uplink ∧
    (Dev.liveLineSent p last d).remote = d.remote ∧
    (Dev.liveLineSent p last d).watch = d.watch ∧
    (Dev.liveLineSent p last d).feed = d.feed ∧
    (Dev.liveLineSent p last d).freeCount = d.freeCount := by
  unfold Dev.liveLineSent
  (repeat' split) <;> simp

/-- What `replayBegin?` leaves alone. -/
theorem Dev.replayBegin?_frame {d e : Dev} (h : d.replayBegin? = some e) :
    e.resetAsserted = d.resetAsserted ∧
    e.mem = d.mem ∧
    e.plan = d.plan ∧
    e.report = d.report ∧
    e.counters = d.counters ∧
    e.tracker = d.tracker ∧
    e.ring = d.ring ∧
    e.timing = d.timing ∧
    e.live = d.live ∧
    e.downlink = d.downlink ∧
    e.uplink = d.uplink ∧
    e.remote = d.remote ∧
    e.watch = d.watch ∧
    e.feed = d.feed ∧
    e.freeCount = d.freeCount := by
  unfold Dev.replayBegin? at h
  (repeat' split at h) <;> first | (cases h; simp) | cases h

/-- What `replayExamine` leaves alone. -/
@[simp] theorem Dev.replayExamine_frame (d : Dev) :
    (Dev.replayExamine d).resetAsserted = d.resetAsserted ∧
    (Dev.replayExamine d).mem = d.mem ∧
    (Dev.replayExamine d).plan = d.plan ∧
    (Dev.replayExamine d).report = d.report ∧
    (Dev.replayExamine d).counters = d.counters ∧
    (Dev.replayExamine d).tracker = d.tracker ∧
    (Dev.replayExamine d).ring = d.ring ∧
    (Dev.replayExamine d).timing = d.timing ∧
    (Dev.replayExamine d).live = d.live ∧
    (Dev.replayExamine d).downlink = d.downlink ∧
    (Dev.replayExamine d).uplink = d.uplink ∧
    (Dev.replayExamine d).remote = d.remote ∧
    (Dev.replayExamine d).watch = d.watch ∧
    (Dev.replayExamine d).feed = d.feed ∧
    (Dev.replayExamine d).freeCount = d.freeCount := by
  unfold Dev.replayExamine
  cases h : d.replayBegin? with
  | none => simp
  | some e =>
    cases h' : e.replayBegin? with
    | none => simpa [h'] using Dev.replayBegin?_frame h
    | some k =>
      have h1 := Dev.replayBegin?_frame h
      have h2 := Dev.replayBegin?_frame h'
      simp only [h', Option.getD_some, h2, h1, and_self]

/-- What `setCurrent` leaves alone. -/
@[simp] theorem Dev.setCurrent_frame (c : Option CurrentReq) (d : Dev) :
    (Dev.setCurrent c d).resetAsserted = d.resetAsserted ∧
    (Dev.setCurrent c d).mem = d.mem ∧
    (Dev.setCurrent c d).plan = d.plan ∧
    (Dev.setCurrent c d).report = d.report ∧
    (Dev.setCurrent c d).counters = d.counters ∧
    (Dev.setCurrent c d).tracker = d.tracker ∧
    (Dev.setCurrent c d).ring = d.ring ∧
    (Dev.setCurrent c d).timing = d.timing ∧
    (Dev.setCurrent c d).live = d.live ∧
    (Dev.setCurrent c d).downlink = d.downlink ∧
    (Dev.setCurrent c d).uplink = d.uplink ∧
    (Dev.setCurrent c d).remote = d.remote ∧
    (Dev.setCurrent c d).watch = d.watch ∧
    (Dev.setCurrent c d).feed = d.feed ∧
    (Dev.setCurrent c d).freeCount = d.freeCount := by
  simp [Dev.setCurrent]

/-- What `enterSending` leaves alone. -/
@[simp] theorem Dev.enterSending_frame (q : ReplayReq) (s : Nat) (d : Dev) :
    (Dev.enterSending q s d).resetAsserted = d.resetAsserted ∧
    (Dev.enterSending q s d).mem = d.mem ∧
    (Dev.enterSending q s d).plan = d.plan ∧
    (Dev.enterSending q s d).report = d.report ∧
    (Dev.enterSending q s d).counters = d.counters ∧
    (Dev.enterSending q s d).tracker = d.tracker ∧
    (Dev.enterSending q s d).timing = d.timing ∧
    (Dev.enterSending q s d).live = d.live ∧
    (Dev.enterSending q s d).downlink = d.downlink ∧
    (Dev.enterSending q s d).uplink = d.uplink ∧
    (Dev.enterSending q s d).remote = d.remote ∧
    (Dev.enterSending q s d).watch = d.watch ∧
    (Dev.enterSending q s d).feed = d.feed ∧
    (Dev.enterSending q s d).freeCount = d.freeCount := by
  simp [Dev.enterSending]

/-- What `startRequest` leaves alone. -/
@[simp] theorem Dev.startRequest_frame (q : ReplayReq) (d : Dev) :
    (Dev.startRequest q d).resetAsserted = d.resetAsserted ∧
    (Dev.startRequest q d).mem = d.mem ∧
    (Dev.startRequest q d).plan = d.plan ∧
    (Dev.startRequest q d).report = d.report ∧
    (Dev.startRequest q d).counters = d.counters ∧
    (Dev.startRequest q d).tracker = d.tracker ∧
    (Dev.startRequest q d).timing = d.timing ∧
    (Dev.startRequest q d).live = d.live ∧
    (Dev.startRequest q d).downlink = d.downlink ∧
    (Dev.startRequest q d).uplink = d.uplink ∧
    (Dev.startRequest q d).remote = d.remote ∧
    (Dev.startRequest q d).watch = d.watch ∧
    (Dev.startRequest q d).feed = d.feed ∧
    (Dev.startRequest q d).freeCount = d.freeCount := by
  unfold Dev.startRequest
  (repeat' split) <;> simp

/-- What `finishRequest` leaves alone. -/
@[simp] theorem Dev.finishRequest_frame (c : CurrentReq) (d : Dev) :
    (Dev.finishRequest c d).resetAsserted = d.resetAsserted ∧
    (Dev.finishRequest c d).mem = d.mem ∧
    (Dev.finishRequest c d).plan = d.plan ∧
    (Dev.finishRequest c d).report = d.report ∧
    (Dev.finishRequest c d).counters = d.counters ∧
    (Dev.finishRequest c d).tracker = d.tracker ∧
    (Dev.finishRequest c d).timing = d.timing ∧
    (Dev.finishRequest c d).live = d.live ∧
    (Dev.finishRequest c d).downlink = d.downlink ∧
    (Dev.finishRequest c d).uplink = d.uplink ∧
    (Dev.finishRequest c d).remote = d.remote ∧
    (Dev.finishRequest c d).watch = d.watch ∧
    (Dev.finishRequest c d).feed = d.feed ∧
    (Dev.finishRequest c d).freeCount = d.freeCount := by
  unfold Dev.finishRequest
  (repeat' split) <;> simp

/-- What `replayPump` leaves alone. -/
@[simp] theorem Dev.replayPump_frame (n : Nat) (d : Dev) :
    (d.replayPump n).resetAsserted = d.resetAsserted ∧
    (d.replayPump n).mem = d.mem ∧
    (d.replayPump n).plan = d.plan ∧
    (d.replayPump n).report = d.report ∧
    (d.replayPump n).counters = d.counters ∧
    (d.replayPump n).tracker = d.tracker ∧
    (d.replayPump n).timing = d.timing ∧
    (d.replayPump n).live = d.live ∧
    (d.replayPump n).uplink = d.uplink ∧
    (d.replayPump n).remote = d.remote ∧
    (d.replayPump n).watch = d.watch ∧
    (d.replayPump n).feed = d.feed ∧
    (d.replayPump n).freeCount = d.freeCount := by
  induction n generalizing d with
  | zero => simp [Dev.replayPump]
  | succ n ih =>
    unfold Dev.replayPump
    (repeat' split) <;> simp [ih]

/-- What `replaySettle` leaves alone. -/
@[simp] theorem Dev.replaySettle_frame (d : Dev) :
    (Dev.replaySettle d).resetAsserted = d.resetAsserted ∧
    (Dev.replaySettle d).mem = d.mem ∧
    (Dev.replaySettle d).plan = d.plan ∧
    (Dev.replaySettle d).report = d.report ∧
    (Dev.replaySettle d).counters = d.counters ∧
    (Dev.replaySettle d).tracker = d.tracker ∧
    (Dev.replaySettle d).timing = d.timing ∧
    (Dev.replaySettle d).live = d.live ∧
    (Dev.replaySettle d).uplink = d.uplink ∧
    (Dev.replaySettle d).remote = d.remote ∧
    (Dev.replaySettle d).watch = d.watch ∧
    (Dev.replaySettle d).feed = d.feed ∧
    (Dev.replaySettle d).freeCount = d.freeCount := by
  simp [Dev.replaySettle]

/-- What `replayClosed` leaves alone. -/
@[simp] theorem Dev.replayClosed_frame (s : Nat) (d : Dev) :
    (Dev.replayClosed s d).resetAsserted = d.resetAsserted ∧
    (Dev.replayClosed s d).mem = d.mem ∧
    (Dev.replayClosed s d).plan = d.plan ∧
    (Dev.replayClosed s d).report = d.report ∧
    (Dev.replayClosed s d).counters = d.counters ∧
    (Dev.replayClosed s d).tracker = d.tracker ∧
    (Dev.replayClosed s d).timing = d.timing ∧
    (Dev.replayClosed s d).live = d.live ∧
    (Dev.replayClosed s d).downlink = d.downlink ∧
    (Dev.replayClosed s d).uplink = d.uplink ∧
    (Dev.replayClosed s d).remote = d.remote ∧
    (Dev.replayClosed s d).watch = d.watch ∧
    (Dev.replayClosed s d).feed = d.feed ∧
    (Dev.replayClosed s d).freeCount = d.freeCount := by
  unfold Dev.replayClosed
  (repeat' split) <;> simp

/-- What `replayLineSent` leaves alone. -/
@[simp] theorem Dev.replayLineSent_frame (last : Bool) (d : Dev) :
    (Dev.replayLineSent last d).resetAsserted = d.resetAsserted ∧
    (Dev.replayLineSent last d).mem = d.mem ∧
    (Dev.replayLineSent last d).plan = d.plan ∧
    (Dev.replayLineSent last d).report = d.report ∧
    (Dev.replayLineSent last d).counters = d.counters ∧
    (Dev.replayLineSent last d).tracker = d.tracker ∧
    (Dev.replayLineSent last d).timing = d.timing ∧
    (Dev.replayLineSent last d).live = d.live ∧
    (Dev.replayLineSent last d).uplink = d.uplink ∧
    (Dev.replayLineSent last d).remote = d.remote ∧
    (Dev.replayLineSent last d).watch = d.watch ∧
    (Dev.replayLineSent last d).feed = d.feed ∧
    (Dev.replayLineSent last d).freeCount = d.freeCount := by
  unfold Dev.replayLineSent
  dsimp only
  (repeat' split) <;> simp

/-- What `cancelRequest` leaves alone. -/
@[simp] theorem Dev.cancelRequest_frame (d : Dev) :
    (Dev.cancelRequest d).resetAsserted = d.resetAsserted ∧
    (Dev.cancelRequest d).mem = d.mem ∧
    (Dev.cancelRequest d).plan = d.plan ∧
    (Dev.cancelRequest d).report = d.report ∧
    (Dev.cancelRequest d).counters = d.counters ∧
    (Dev.cancelRequest d).tracker = d.tracker ∧
    (Dev.cancelRequest d).timing = d.timing ∧
    (Dev.cancelRequest d).live = d.live ∧
    (Dev.cancelRequest d).downlink = d.downlink ∧
    (Dev.cancelRequest d).uplink = d.uplink ∧
    (Dev.cancelRequest d).remote = d.remote ∧
    (Dev.cancelRequest d).watch = d.watch ∧
    (Dev.cancelRequest d).feed = d.feed ∧
    (Dev.cancelRequest d).freeCount = d.freeCount := by
  unfold Dev.cancelRequest
  dsimp only
  (repeat' split) <;> simp

/-- What `cancelQueued` leaves alone. -/
@[simp] theorem Dev.cancelQueued_frame (d : Dev) :
    (Dev.cancelQueued d).resetAsserted = d.resetAsserted ∧
    (Dev.cancelQueued d).mem = d.mem ∧
    (Dev.cancelQueued d).plan = d.plan ∧
    (Dev.cancelQueued d).report = d.report ∧
    (Dev.cancelQueued d).counters = d.counters ∧
    (Dev.cancelQueued d).tracker = d.tracker ∧
    (Dev.cancelQueued d).ring = d.ring ∧
    (Dev.cancelQueued d).timing = d.timing ∧
    (Dev.cancelQueued d).live = d.live ∧
    (Dev.cancelQueued d).downlink = d.downlink ∧
    (Dev.cancelQueued d).uplink = d.uplink ∧
    (Dev.cancelQueued d).remote = d.remote ∧
    (Dev.cancelQueued d).watch = d.watch ∧
    (Dev.cancelQueued d).feed = d.feed ∧
    (Dev.cancelQueued d).freeCount = d.freeCount := by
  simp [Dev.cancelQueued]

/-- What `forgetMark` leaves alone. -/
@[simp] theorem Dev.forgetMark_frame (d : Dev) :
    (Dev.forgetMark d).resetAsserted = d.resetAsserted ∧
    (Dev.forgetMark d).mem = d.mem ∧
    (Dev.forgetMark d).plan = d.plan ∧
    (Dev.forgetMark d).report = d.report ∧
    (Dev.forgetMark d).counters = d.counters ∧
    (Dev.forgetMark d).tracker = d.tracker ∧
    (Dev.forgetMark d).ring = d.ring ∧
    (Dev.forgetMark d).timing = d.timing ∧
    (Dev.forgetMark d).live = d.live ∧
    (Dev.forgetMark d).downlink = d.downlink ∧
    (Dev.forgetMark d).uplink = d.uplink ∧
    (Dev.forgetMark d).remote = d.remote ∧
    (Dev.forgetMark d).watch = d.watch ∧
    (Dev.forgetMark d).feed = d.feed ∧
    (Dev.forgetMark d).freeCount = d.freeCount := by
  simp [Dev.forgetMark]

/-- What `addCredit` leaves alone. -/
@[simp] theorem Dev.addCredit_frame (n : Nat) (d : Dev) :
    (Dev.addCredit n d).resetAsserted = d.resetAsserted ∧
    (Dev.addCredit n d).mem = d.mem ∧
    (Dev.addCredit n d).plan = d.plan ∧
    (Dev.addCredit n d).report = d.report ∧
    (Dev.addCredit n d).counters = d.counters ∧
    (Dev.addCredit n d).tracker = d.tracker ∧
    (Dev.addCredit n d).ring = d.ring ∧
    (Dev.addCredit n d).timing = d.timing ∧
    (Dev.addCredit n d).live = d.live ∧
    (Dev.addCredit n d).downlink = d.downlink ∧
    (Dev.addCredit n d).uplink = d.uplink ∧
    (Dev.addCredit n d).remote = d.remote ∧
    (Dev.addCredit n d).watch = d.watch ∧
    (Dev.addCredit n d).feed = d.feed ∧
    (Dev.addCredit n d).freeCount = d.freeCount := by
  simp [Dev.addCredit]

/-- What `fetchResponse` leaves alone. -/
@[simp] theorem Dev.fetchResponse_frame (r : ReaderId) (i : BufId) (q : FetchReq) (data : Option (List Byte)) (d : Dev) :
    (Dev.fetchResponse r i q data d).resetAsserted = d.resetAsserted ∧
    (Dev.fetchResponse r i q data d).mem = d.mem ∧
    (Dev.fetchResponse r i q data d).plan = d.plan ∧
    (Dev.fetchResponse r i q data d).report = d.report ∧
    (Dev.fetchResponse r i q data d).counters = d.counters ∧
    (Dev.fetchResponse r i q data d).tracker = d.tracker ∧
    (Dev.fetchResponse r i q data d).ring = d.ring ∧
    (Dev.fetchResponse r i q data d).timing = d.timing ∧
    (Dev.fetchResponse r i q data d).downlink = d.downlink ∧
    (Dev.fetchResponse r i q data d).uplink = d.uplink ∧
    (Dev.fetchResponse r i q data d).remote = d.remote ∧
    (Dev.fetchResponse r i q data d).watch = d.watch ∧
    (Dev.fetchResponse r i q data d).feed = d.feed ∧
    (Dev.fetchResponse r i q data d).freeCount = d.freeCount := by
  unfold Dev.fetchResponse
  dsimp only
  (repeat' split) <;> simp

/-- What `addDamage` leaves alone. -/
@[simp] theorem Dev.addDamage_frame (p : Plan) (s t f l : Nat) (d : Dev) :
    (Dev.addDamage p s t f l d).resetAsserted = d.resetAsserted ∧
    (Dev.addDamage p s t f l d).mem = d.mem ∧
    (Dev.addDamage p s t f l d).plan = d.plan ∧
    (Dev.addDamage p s t f l d).report = d.report ∧
    (Dev.addDamage p s t f l d).counters = d.counters ∧
    (Dev.addDamage p s t f l d).tracker = d.tracker ∧
    (Dev.addDamage p s t f l d).timing = d.timing ∧
    (Dev.addDamage p s t f l d).live = d.live ∧
    (Dev.addDamage p s t f l d).replay = d.replay ∧
    (Dev.addDamage p s t f l d).downlink = d.downlink ∧
    (Dev.addDamage p s t f l d).uplink = d.uplink ∧
    (Dev.addDamage p s t f l d).remote = d.remote ∧
    (Dev.addDamage p s t f l d).watch = d.watch ∧
    (Dev.addDamage p s t f l d).feed = d.feed ∧
    (Dev.addDamage p s t f l d).freeCount = d.freeCount := by
  simp [Dev.addDamage]

/-- What `updCtx` leaves alone. -/
@[simp] theorem Dev.updCtx_frame (i : CtxId) (f : Context → Context) (d : Dev) :
    (Dev.updCtx i f d).resetAsserted = d.resetAsserted ∧
    (Dev.updCtx i f d).mem = d.mem ∧
    (Dev.updCtx i f d).plan = d.plan ∧
    (Dev.updCtx i f d).report = d.report ∧
    (Dev.updCtx i f d).counters = d.counters ∧
    (Dev.updCtx i f d).ring = d.ring ∧
    (Dev.updCtx i f d).timing = d.timing ∧
    (Dev.updCtx i f d).live = d.live ∧
    (Dev.updCtx i f d).replay = d.replay ∧
    (Dev.updCtx i f d).downlink = d.downlink ∧
    (Dev.updCtx i f d).uplink = d.uplink ∧
    (Dev.updCtx i f d).remote = d.remote ∧
    (Dev.updCtx i f d).watch = d.watch ∧
    (Dev.updCtx i f d).feed = d.feed ∧
    (Dev.updCtx i f d).freeCount = d.freeCount := by
  unfold Dev.updCtx
  (repeat' split) <;> simp

/-- What `updFront` leaves alone. -/
@[simp] theorem Dev.updFront_frame (i : CtxId) (t : Nat) (f : Front → Front) (d : Dev) :
    (Dev.updFront i t f d).resetAsserted = d.resetAsserted ∧
    (Dev.updFront i t f d).mem = d.mem ∧
    (Dev.updFront i t f d).plan = d.plan ∧
    (Dev.updFront i t f d).report = d.report ∧
    (Dev.updFront i t f d).counters = d.counters ∧
    (Dev.updFront i t f d).ring = d.ring ∧
    (Dev.updFront i t f d).timing = d.timing ∧
    (Dev.updFront i t f d).live = d.live ∧
    (Dev.updFront i t f d).replay = d.replay ∧
    (Dev.updFront i t f d).downlink = d.downlink ∧
    (Dev.updFront i t f d).uplink = d.uplink ∧
    (Dev.updFront i t f d).remote = d.remote ∧
    (Dev.updFront i t f d).watch = d.watch ∧
    (Dev.updFront i t f d).feed = d.feed ∧
    (Dev.updFront i t f d).freeCount = d.freeCount := by
  simp [Dev.updFront]

/-- What `freeCtx` leaves alone. -/
@[simp] theorem Dev.freeCtx_frame (i : CtxId) (d : Dev) :
    (Dev.freeCtx i d).resetAsserted = d.resetAsserted ∧
    (Dev.freeCtx i d).mem = d.mem ∧
    (Dev.freeCtx i d).plan = d.plan ∧
    (Dev.freeCtx i d).report = d.report ∧
    (Dev.freeCtx i d).counters = d.counters ∧
    (Dev.freeCtx i d).ring = d.ring ∧
    (Dev.freeCtx i d).timing = d.timing ∧
    (Dev.freeCtx i d).live = d.live ∧
    (Dev.freeCtx i d).replay = d.replay ∧
    (Dev.freeCtx i d).downlink = d.downlink ∧
    (Dev.freeCtx i d).uplink = d.uplink ∧
    (Dev.freeCtx i d).remote = d.remote ∧
    (Dev.freeCtx i d).watch = d.watch ∧
    (Dev.freeCtx i d).feed = d.feed ∧
    (Dev.freeCtx i d).freeCount = d.freeCount := by
  unfold Dev.freeCtx
  dsimp only
  (repeat' split) <;> simp

/-- What `bindCtx` leaves alone. -/
@[simp] theorem Dev.bindCtx_frame (p : Plan) (s : Nat) (start : HeadTime) (d : Dev) :
    (Dev.bindCtx p s start d).resetAsserted = d.resetAsserted ∧
    (Dev.bindCtx p s start d).mem = d.mem ∧
    (Dev.bindCtx p s start d).plan = d.plan ∧
    (Dev.bindCtx p s start d).report = d.report ∧
    (Dev.bindCtx p s start d).counters = d.counters ∧
    (Dev.bindCtx p s start d).ring = d.ring ∧
    (Dev.bindCtx p s start d).timing = d.timing ∧
    (Dev.bindCtx p s start d).live = d.live ∧
    (Dev.bindCtx p s start d).replay = d.replay ∧
    (Dev.bindCtx p s start d).downlink = d.downlink ∧
    (Dev.bindCtx p s start d).uplink = d.uplink ∧
    (Dev.bindCtx p s start d).remote = d.remote ∧
    (Dev.bindCtx p s start d).watch = d.watch ∧
    (Dev.bindCtx p s start d).feed = d.feed ∧
    (Dev.bindCtx p s start d).freeCount = d.freeCount := by
  unfold Dev.bindCtx
  dsimp only
  (repeat' split) <;> simp

/-- What `shutFrame` leaves alone. -/
@[simp] theorem Dev.shutFrame_frame (i : CtxId) (c : Context) (d : Dev) :
    (Dev.shutFrame i c d).resetAsserted = d.resetAsserted ∧
    (Dev.shutFrame i c d).mem = d.mem ∧
    (Dev.shutFrame i c d).plan = d.plan ∧
    (Dev.shutFrame i c d).report = d.report ∧
    (Dev.shutFrame i c d).counters = d.counters ∧
    (Dev.shutFrame i c d).timing = d.timing ∧
    (Dev.shutFrame i c d).live = d.live ∧
    (Dev.shutFrame i c d).replay = d.replay ∧
    (Dev.shutFrame i c d).downlink = d.downlink ∧
    (Dev.shutFrame i c d).uplink = d.uplink ∧
    (Dev.shutFrame i c d).remote = d.remote ∧
    (Dev.shutFrame i c d).watch = d.watch ∧
    (Dev.shutFrame i c d).feed = d.feed ∧
    (Dev.shutFrame i c d).freeCount = d.freeCount := by
  simp [Dev.shutFrame]

/-- What `closeFrame` leaves alone. -/
@[simp] theorem Dev.closeFrame_frame (p : Plan) (i : CtxId) (c : Context) (d : Dev) :
    (Dev.closeFrame p i c d).resetAsserted = d.resetAsserted ∧
    (Dev.closeFrame p i c d).mem = d.mem ∧
    (Dev.closeFrame p i c d).plan = d.plan ∧
    (Dev.closeFrame p i c d).report = d.report ∧
    (Dev.closeFrame p i c d).timing = d.timing ∧
    (Dev.closeFrame p i c d).live = d.live ∧
    (Dev.closeFrame p i c d).uplink = d.uplink ∧
    (Dev.closeFrame p i c d).remote = d.remote ∧
    (Dev.closeFrame p i c d).watch = d.watch ∧
    (Dev.closeFrame p i c d).feed = d.feed ∧
    (Dev.closeFrame p i c d).freeCount = d.freeCount := by
  simp [Dev.closeFrame]

/-- What `closeCheck` leaves alone. -/
@[simp] theorem Dev.closeCheck_frame (p : Plan) (i : CtxId) (d : Dev) :
    (Dev.closeCheck p i d).resetAsserted = d.resetAsserted ∧
    (Dev.closeCheck p i d).mem = d.mem ∧
    (Dev.closeCheck p i d).plan = d.plan ∧
    (Dev.closeCheck p i d).report = d.report ∧
    (Dev.closeCheck p i d).timing = d.timing ∧
    (Dev.closeCheck p i d).live = d.live ∧
    (Dev.closeCheck p i d).uplink = d.uplink ∧
    (Dev.closeCheck p i d).remote = d.remote ∧
    (Dev.closeCheck p i d).watch = d.watch ∧
    (Dev.closeCheck p i d).feed = d.feed ∧
    (Dev.closeCheck p i d).freeCount = d.freeCount := by
  unfold Dev.closeCheck
  (repeat' split) <;> simp

/-- What `stallTile` leaves alone. -/
@[simp] theorem Dev.stallTile_frame (p : Plan) (i : CtxId) (s : Nat) (t : Nat) (g : Front) (d : Dev) :
    (Dev.stallTile p i s t g d).resetAsserted = d.resetAsserted ∧
    (Dev.stallTile p i s t g d).mem = d.mem ∧
    (Dev.stallTile p i s t g d).plan = d.plan ∧
    (Dev.stallTile p i s t g d).report = d.report ∧
    (Dev.stallTile p i s t g d).counters = d.counters ∧
    (Dev.stallTile p i s t g d).timing = d.timing ∧
    (Dev.stallTile p i s t g d).live = d.live ∧
    (Dev.stallTile p i s t g d).replay = d.replay ∧
    (Dev.stallTile p i s t g d).downlink = d.downlink ∧
    (Dev.stallTile p i s t g d).uplink = d.uplink ∧
    (Dev.stallTile p i s t g d).remote = d.remote ∧
    (Dev.stallTile p i s t g d).watch = d.watch ∧
    (Dev.stallTile p i s t g d).feed = d.feed ∧
    (Dev.stallTile p i s t g d).freeCount = d.freeCount := by
  simp [Dev.stallTile]

/-- What `stallAll` leaves alone. -/
@[simp] theorem Dev.stallAll_frame (p : Plan) (i : CtxId) (c : Context) (ts : List Nat) (d : Dev) :
    (d.stallAll p i c ts).resetAsserted = d.resetAsserted ∧
    (d.stallAll p i c ts).mem = d.mem ∧
    (d.stallAll p i c ts).plan = d.plan ∧
    (d.stallAll p i c ts).report = d.report ∧
    (d.stallAll p i c ts).counters = d.counters ∧
    (d.stallAll p i c ts).timing = d.timing ∧
    (d.stallAll p i c ts).live = d.live ∧
    (d.stallAll p i c ts).replay = d.replay ∧
    (d.stallAll p i c ts).downlink = d.downlink ∧
    (d.stallAll p i c ts).uplink = d.uplink ∧
    (d.stallAll p i c ts).remote = d.remote ∧
    (d.stallAll p i c ts).watch = d.watch ∧
    (d.stallAll p i c ts).feed = d.feed ∧
    (d.stallAll p i c ts).freeCount = d.freeCount := by
  induction ts generalizing d with
  | nil => simp [Dev.stallAll]
  | cons t ts ih => unfold Dev.stallAll; simp only [ih]; split <;> simp

/-- What `forceClose` leaves alone. -/
@[simp] theorem Dev.forceClose_frame (p : Plan) (i : CtxId) (d : Dev) :
    (Dev.forceClose p i d).resetAsserted = d.resetAsserted ∧
    (Dev.forceClose p i d).mem = d.mem ∧
    (Dev.forceClose p i d).plan = d.plan ∧
    (Dev.forceClose p i d).report = d.report ∧
    (Dev.forceClose p i d).timing = d.timing ∧
    (Dev.forceClose p i d).uplink = d.uplink ∧
    (Dev.forceClose p i d).remote = d.remote ∧
    (Dev.forceClose p i d).watch = d.watch ∧
    (Dev.forceClose p i d).feed = d.feed ∧
    (Dev.forceClose p i d).freeCount = d.freeCount := by
  unfold Dev.forceClose
  dsimp only
  (repeat' split) <;> simp

/-- What `clearClose` leaves alone. -/
@[simp] theorem Dev.clearClose_frame (p : Plan) (i : CtxId) (d : Dev) :
    (Dev.clearClose p i d).resetAsserted = d.resetAsserted ∧
    (Dev.clearClose p i d).mem = d.mem ∧
    (Dev.clearClose p i d).plan = d.plan ∧
    (Dev.clearClose p i d).report = d.report ∧
    (Dev.clearClose p i d).counters = d.counters ∧
    (Dev.clearClose p i d).timing = d.timing ∧
    (Dev.clearClose p i d).live = d.live ∧
    (Dev.clearClose p i d).replay = d.replay ∧
    (Dev.clearClose p i d).downlink = d.downlink ∧
    (Dev.clearClose p i d).uplink = d.uplink ∧
    (Dev.clearClose p i d).remote = d.remote ∧
    (Dev.clearClose p i d).watch = d.watch ∧
    (Dev.clearClose p i d).feed = d.feed ∧
    (Dev.clearClose p i d).freeCount = d.freeCount := by
  unfold Dev.clearClose
  dsimp only
  (repeat' split) <;> simp

/-- What `expireTile` leaves alone. -/
@[simp] theorem Dev.expireTile_frame (i : CtxId) (t : Nat) (d : Dev) :
    (Dev.expireTile i t d).resetAsserted = d.resetAsserted ∧
    (Dev.expireTile i t d).mem = d.mem ∧
    (Dev.expireTile i t d).plan = d.plan ∧
    (Dev.expireTile i t d).report = d.report ∧
    (Dev.expireTile i t d).timing = d.timing ∧
    (Dev.expireTile i t d).uplink = d.uplink ∧
    (Dev.expireTile i t d).remote = d.remote ∧
    (Dev.expireTile i t d).watch = d.watch ∧
    (Dev.expireTile i t d).feed = d.feed ∧
    (Dev.expireTile i t d).freeCount = d.freeCount := by
  unfold Dev.expireTile
  (repeat' split) <;> simp

/-- What `moveFront` leaves alone. -/
@[simp] theorem Dev.moveFront_frame (p : Plan) (i : CtxId) (t : HeadTime) (q : Piece) (d : Dev) :
    (Dev.moveFront p i t q d).resetAsserted = d.resetAsserted ∧
    (Dev.moveFront p i t q d).mem = d.mem ∧
    (Dev.moveFront p i t q d).plan = d.plan ∧
    (Dev.moveFront p i t q d).report = d.report ∧
    (Dev.moveFront p i t q d).timing = d.timing ∧
    (Dev.moveFront p i t q d).uplink = d.uplink ∧
    (Dev.moveFront p i t q d).remote = d.remote ∧
    (Dev.moveFront p i t q d).watch = d.watch ∧
    (Dev.moveFront p i t q d).feed = d.feed ∧
    (Dev.moveFront p i t q d).freeCount = d.freeCount := by
  unfold Dev.moveFront
  dsimp only
  (repeat' split) <;> simp

/-- What `judgePiece` leaves alone. -/
@[simp] theorem Dev.judgePiece_frame (p : Plan) (i : CtxId) (c : Context) (t : HeadTime) (q : Piece) (d : Dev) :
    (Dev.judgePiece p i c t q d).resetAsserted = d.resetAsserted ∧
    (Dev.judgePiece p i c t q d).mem = d.mem ∧
    (Dev.judgePiece p i c t q d).plan = d.plan ∧
    (Dev.judgePiece p i c t q d).report = d.report ∧
    (Dev.judgePiece p i c t q d).timing = d.timing ∧
    (Dev.judgePiece p i c t q d).uplink = d.uplink ∧
    (Dev.judgePiece p i c t q d).remote = d.remote ∧
    (Dev.judgePiece p i c t q d).watch = d.watch ∧
    (Dev.judgePiece p i c t q d).feed = d.feed ∧
    (Dev.judgePiece p i c t q d).freeCount = d.freeCount := by
  unfold Dev.judgePiece
  dsimp only
  (repeat' split) <;> simp

/-- What `trackerPiece` leaves alone. -/
@[simp] theorem Dev.trackerPiece_frame (p : Plan) (t : HeadTime) (q : Piece) (d : Dev) :
    (Dev.trackerPiece p t q d).resetAsserted = d.resetAsserted ∧
    (Dev.trackerPiece p t q d).mem = d.mem ∧
    (Dev.trackerPiece p t q d).plan = d.plan ∧
    (Dev.trackerPiece p t q d).report = d.report ∧
    (Dev.trackerPiece p t q d).timing = d.timing ∧
    (Dev.trackerPiece p t q d).uplink = d.uplink ∧
    (Dev.trackerPiece p t q d).remote = d.remote ∧
    (Dev.trackerPiece p t q d).watch = d.watch ∧
    (Dev.trackerPiece p t q d).feed = d.feed ∧
    (Dev.trackerPiece p t q d).freeCount = d.freeCount := by
  unfold Dev.trackerPiece
  dsimp only
  (repeat' split) <;> simp

/-- What `errorDamage` leaves alone. -/
@[simp] theorem Dev.errorDamage_frame (h : HandleEntry) (d : Dev) :
    (Dev.errorDamage h d).resetAsserted = d.resetAsserted ∧
    (Dev.errorDamage h d).mem = d.mem ∧
    (Dev.errorDamage h d).plan = d.plan ∧
    (Dev.errorDamage h d).report = d.report ∧
    (Dev.errorDamage h d).counters = d.counters ∧
    (Dev.errorDamage h d).tracker = d.tracker ∧
    (Dev.errorDamage h d).timing = d.timing ∧
    (Dev.errorDamage h d).live = d.live ∧
    (Dev.errorDamage h d).replay = d.replay ∧
    (Dev.errorDamage h d).downlink = d.downlink ∧
    (Dev.errorDamage h d).uplink = d.uplink ∧
    (Dev.errorDamage h d).remote = d.remote ∧
    (Dev.errorDamage h d).watch = d.watch ∧
    (Dev.errorDamage h d).feed = d.feed ∧
    (Dev.errorDamage h d).freeCount = d.freeCount := by
  unfold Dev.errorDamage
  (repeat' split) <;> simp

/-- What `drainExamine` leaves alone. -/
@[simp] theorem Dev.drainExamine_frame (d : Dev) :
    (Dev.drainExamine d).resetAsserted = d.resetAsserted ∧
    (Dev.drainExamine d).mem = d.mem ∧
    (Dev.drainExamine d).plan = d.plan ∧
    (Dev.drainExamine d).report = d.report ∧
    (Dev.drainExamine d).counters = d.counters ∧
    (Dev.drainExamine d).tracker = d.tracker ∧
    (Dev.drainExamine d).ring = d.ring ∧
    (Dev.drainExamine d).timing = d.timing ∧
    (Dev.drainExamine d).live = d.live ∧
    (Dev.drainExamine d).replay = d.replay ∧
    (Dev.drainExamine d).downlink = d.downlink ∧
    (Dev.drainExamine d).uplink = d.uplink ∧
    (Dev.drainExamine d).remote = d.remote ∧
    (Dev.drainExamine d).watch = d.watch ∧
    (Dev.drainExamine d).freeCount = d.freeCount := by
  simp [Dev.drainExamine]

/-- What `drainResponse` leaves alone. -/
@[simp] theorem Dev.drainResponse_frame (n : Nat) (stale ok : Bool) (d : Dev) :
    (Dev.drainResponse n stale ok d).resetAsserted = d.resetAsserted ∧
    (Dev.drainResponse n stale ok d).mem = d.mem ∧
    (Dev.drainResponse n stale ok d).plan = d.plan ∧
    (Dev.drainResponse n stale ok d).counters = d.counters ∧
    (Dev.drainResponse n stale ok d).tracker = d.tracker ∧
    (Dev.drainResponse n stale ok d).ring = d.ring ∧
    (Dev.drainResponse n stale ok d).timing = d.timing ∧
    (Dev.drainResponse n stale ok d).live = d.live ∧
    (Dev.drainResponse n stale ok d).replay = d.replay ∧
    (Dev.drainResponse n stale ok d).downlink = d.downlink ∧
    (Dev.drainResponse n stale ok d).uplink = d.uplink ∧
    (Dev.drainResponse n stale ok d).remote = d.remote ∧
    (Dev.drainResponse n stale ok d).watch = d.watch ∧
    (Dev.drainResponse n stale ok d).freeCount = d.freeCount := by
  unfold Dev.drainResponse
  dsimp only
  (repeat' split) <;> simp

/-- What `offerConsumer` leaves alone. -/
@[simp] theorem Dev.offerConsumer_frame (v : Nat) (d : Dev) :
    (Dev.offerConsumer v d).resetAsserted = d.resetAsserted ∧
    (Dev.offerConsumer v d).mem = d.mem ∧
    (Dev.offerConsumer v d).plan = d.plan ∧
    (Dev.offerConsumer v d).report = d.report ∧
    (Dev.offerConsumer v d).tracker = d.tracker ∧
    (Dev.offerConsumer v d).ring = d.ring ∧
    (Dev.offerConsumer v d).timing = d.timing ∧
    (Dev.offerConsumer v d).live = d.live ∧
    (Dev.offerConsumer v d).replay = d.replay ∧
    (Dev.offerConsumer v d).downlink = d.downlink ∧
    (Dev.offerConsumer v d).uplink = d.uplink ∧
    (Dev.offerConsumer v d).remote = d.remote ∧
    (Dev.offerConsumer v d).watch = d.watch ∧
    (Dev.offerConsumer v d).freeCount = d.freeCount := by
  unfold Dev.offerConsumer
  dsimp only
  (repeat' split) <;> simp

/-- What `stageReturn` leaves alone. -/
@[simp] theorem Dev.stageReturn_frame (bytes : List Byte) (d : Dev) :
    (Dev.stageReturn bytes d).resetAsserted = d.resetAsserted ∧
    (Dev.stageReturn bytes d).mem = d.mem ∧
    (Dev.stageReturn bytes d).plan = d.plan ∧
    (Dev.stageReturn bytes d).report = d.report ∧
    (Dev.stageReturn bytes d).tracker = d.tracker ∧
    (Dev.stageReturn bytes d).ring = d.ring ∧
    (Dev.stageReturn bytes d).timing = d.timing ∧
    (Dev.stageReturn bytes d).live = d.live ∧
    (Dev.stageReturn bytes d).replay = d.replay ∧
    (Dev.stageReturn bytes d).downlink = d.downlink ∧
    (Dev.stageReturn bytes d).uplink = d.uplink ∧
    (Dev.stageReturn bytes d).remote = d.remote ∧
    (Dev.stageReturn bytes d).watch = d.watch ∧
    (Dev.stageReturn bytes d).freeCount = d.freeCount := by
  unfold Dev.stageReturn
  (repeat' split) <;> simp

/-- What `dropReport` leaves alone. -/
@[simp] theorem Dev.dropReport_frame (d : Dev) :
    (Dev.dropReport d).resetAsserted = d.resetAsserted ∧
    (Dev.dropReport d).mem = d.mem ∧
    (Dev.dropReport d).plan = d.plan ∧
    (Dev.dropReport d).report = d.report ∧
    (Dev.dropReport d).tracker = d.tracker ∧
    (Dev.dropReport d).ring = d.ring ∧
    (Dev.dropReport d).timing = d.timing ∧
    (Dev.dropReport d).live = d.live ∧
    (Dev.dropReport d).replay = d.replay ∧
    (Dev.dropReport d).uplink = d.uplink ∧
    (Dev.dropReport d).remote = d.remote ∧
    (Dev.dropReport d).watch = d.watch ∧
    (Dev.dropReport d).freeCount = d.freeCount := by
  unfold Dev.dropReport
  dsimp only
  (repeat' split) <;> simp

/-- What `feedApply` leaves alone. -/
@[simp] theorem Dev.feedApply_frame (p : Plan) (d : Dev) :
    (Dev.feedApply p d).resetAsserted = d.resetAsserted ∧
    (Dev.feedApply p d).mem = d.mem ∧
    (Dev.feedApply p d).plan = d.plan ∧
    (Dev.feedApply p d).counters = d.counters ∧
    (Dev.feedApply p d).tracker = d.tracker ∧
    (Dev.feedApply p d).ring = d.ring ∧
    (Dev.feedApply p d).timing = d.timing ∧
    (Dev.feedApply p d).live = d.live ∧
    (Dev.feedApply p d).replay = d.replay ∧
    (Dev.feedApply p d).downlink = d.downlink ∧
    (Dev.feedApply p d).uplink = d.uplink ∧
    (Dev.feedApply p d).remote = d.remote ∧
    (Dev.feedApply p d).watch = d.watch ∧
    (Dev.feedApply p d).freeCount = d.freeCount := by
  unfold Dev.feedApply
  (repeat' split) <;> simp

end Sys2Proof.Machine
end

