-- ==== Sys2Proof/Laws/FramesB.lean ====
section
/-! SUPPORT. What the operations of RingOps, PlanOps, Genlock, Watches, Classify and Arbiter leave alone: every part of the block that an operation does not name. -/

namespace Sys2Proof.Machine

/-- What `allocate` leaves alone. -/
@[simp] theorem Dev.allocate_frame (p : Plan) (s : Nat) (at_ : HeadTime) (phase : Nat) (base : BitVec 32) (d : Dev) :
    (Dev.allocate p s at_ phase base d).resetAsserted = d.resetAsserted ∧
    (Dev.allocate p s at_ phase base d).mem = d.mem ∧
    (Dev.allocate p s at_ phase base d).plan = d.plan ∧
    (Dev.allocate p s at_ phase base d).report = d.report ∧
    (Dev.allocate p s at_ phase base d).timing = d.timing ∧
    (Dev.allocate p s at_ phase base d).replay = d.replay ∧
    (Dev.allocate p s at_ phase base d).downlink = d.downlink ∧
    (Dev.allocate p s at_ phase base d).uplink = d.uplink ∧
    (Dev.allocate p s at_ phase base d).remote = d.remote ∧
    (Dev.allocate p s at_ phase base d).watch = d.watch ∧
    (Dev.allocate p s at_ phase base d).feed = d.feed ∧
    (Dev.allocate p s at_ phase base d).freeCount = d.freeCount := by
  unfold Dev.allocate
  dsimp only
  (repeat' split) <;> simp

/-- What `takeCapture` leaves alone. -/
@[simp] theorem Dev.takeCapture_frame (p : Plan) (at_ : HeadTime) (phase : Nat) (base : BitVec 32) (d : Dev) :
    (Dev.takeCapture p at_ phase base d).resetAsserted = d.resetAsserted ∧
    (Dev.takeCapture p at_ phase base d).mem = d.mem ∧
    (Dev.takeCapture p at_ phase base d).plan = d.plan ∧
    (Dev.takeCapture p at_ phase base d).report = d.report ∧
    (Dev.takeCapture p at_ phase base d).timing = d.timing ∧
    (Dev.takeCapture p at_ phase base d).uplink = d.uplink ∧
    (Dev.takeCapture p at_ phase base d).remote = d.remote ∧
    (Dev.takeCapture p at_ phase base d).watch = d.watch ∧
    (Dev.takeCapture p at_ phase base d).feed = d.feed ∧
    (Dev.takeCapture p at_ phase base d).freeCount = d.freeCount := by
  unfold Dev.takeCapture
  dsimp only
  (repeat' split) <;> simp

/-- What `holdFrame` leaves alone. -/
@[simp] theorem Dev.holdFrame_frame (f : FrameNo) (d : Dev) :
    ((Dev.holdFrame f d).1).resetAsserted = d.resetAsserted ∧
    ((Dev.holdFrame f d).1).mem = d.mem ∧
    ((Dev.holdFrame f d).1).plan = d.plan ∧
    ((Dev.holdFrame f d).1).report = d.report ∧
    ((Dev.holdFrame f d).1).counters = d.counters ∧
    ((Dev.holdFrame f d).1).tracker = d.tracker ∧
    ((Dev.holdFrame f d).1).timing = d.timing ∧
    ((Dev.holdFrame f d).1).live = d.live ∧
    ((Dev.holdFrame f d).1).replay = d.replay ∧
    ((Dev.holdFrame f d).1).downlink = d.downlink ∧
    ((Dev.holdFrame f d).1).uplink = d.uplink ∧
    ((Dev.holdFrame f d).1).remote = d.remote ∧
    ((Dev.holdFrame f d).1).watch = d.watch ∧
    ((Dev.holdFrame f d).1).feed = d.feed ∧
    ((Dev.holdFrame f d).1).freeCount = d.freeCount := by
  unfold Dev.holdFrame
  dsimp only
  (repeat' split) <;> simp

/-- What `releaseFrame` leaves alone. -/
@[simp] theorem Dev.releaseFrame_frame (f : FrameNo) (d : Dev) :
    ((Dev.releaseFrame f d).1).resetAsserted = d.resetAsserted ∧
    ((Dev.releaseFrame f d).1).mem = d.mem ∧
    ((Dev.releaseFrame f d).1).plan = d.plan ∧
    ((Dev.releaseFrame f d).1).report = d.report ∧
    ((Dev.releaseFrame f d).1).counters = d.counters ∧
    ((Dev.releaseFrame f d).1).tracker = d.tracker ∧
    ((Dev.releaseFrame f d).1).timing = d.timing ∧
    ((Dev.releaseFrame f d).1).live = d.live ∧
    ((Dev.releaseFrame f d).1).replay = d.replay ∧
    ((Dev.releaseFrame f d).1).downlink = d.downlink ∧
    ((Dev.releaseFrame f d).1).uplink = d.uplink ∧
    ((Dev.releaseFrame f d).1).remote = d.remote ∧
    ((Dev.releaseFrame f d).1).watch = d.watch ∧
    ((Dev.releaseFrame f d).1).feed = d.feed ∧
    ((Dev.releaseFrame f d).1).freeCount = d.freeCount := by
  unfold Dev.releaseFrame
  dsimp only
  (repeat' split) <;> simp

/-- What `releaseEvery` leaves alone. -/
@[simp] theorem Dev.releaseEvery_frame (d : Dev) :
    (Dev.releaseEvery d).resetAsserted = d.resetAsserted ∧
    (Dev.releaseEvery d).mem = d.mem ∧
    (Dev.releaseEvery d).plan = d.plan ∧
    (Dev.releaseEvery d).report = d.report ∧
    (Dev.releaseEvery d).counters = d.counters ∧
    (Dev.releaseEvery d).tracker = d.tracker ∧
    (Dev.releaseEvery d).timing = d.timing ∧
    (Dev.releaseEvery d).live = d.live ∧
    (Dev.releaseEvery d).replay = d.replay ∧
    (Dev.releaseEvery d).downlink = d.downlink ∧
    (Dev.releaseEvery d).uplink = d.uplink ∧
    (Dev.releaseEvery d).remote = d.remote ∧
    (Dev.releaseEvery d).watch = d.watch ∧
    (Dev.releaseEvery d).feed = d.feed ∧
    (Dev.releaseEvery d).freeCount = d.freeCount := by
  simp [Dev.releaseEvery]

/-- What `clearReaders` leaves alone. -/
@[simp] theorem Dev.clearReaders_frame (d : Dev) :
    (Dev.clearReaders d).resetAsserted = d.resetAsserted ∧
    (Dev.clearReaders d).mem = d.mem ∧
    (Dev.clearReaders d).plan = d.plan ∧
    (Dev.clearReaders d).report = d.report ∧
    (Dev.clearReaders d).counters = d.counters ∧
    (Dev.clearReaders d).tracker = d.tracker ∧
    (Dev.clearReaders d).timing = d.timing ∧
    (Dev.clearReaders d).uplink = d.uplink ∧
    (Dev.clearReaders d).remote = d.remote ∧
    (Dev.clearReaders d).watch = d.watch ∧
    (Dev.clearReaders d).feed = d.feed ∧
    (Dev.clearReaders d).freeCount = d.freeCount := by
  simp [Dev.clearReaders]

/-- What `clearFilling` leaves alone. -/
@[simp] theorem Dev.clearFilling_frame (d : Dev) :
    (Dev.clearFilling d).resetAsserted = d.resetAsserted ∧
    (Dev.clearFilling d).mem = d.mem ∧
    (Dev.clearFilling d).plan = d.plan ∧
    (Dev.clearFilling d).report = d.report ∧
    (Dev.clearFilling d).counters = d.counters ∧
    (Dev.clearFilling d).timing = d.timing ∧
    (Dev.clearFilling d).live = d.live ∧
    (Dev.clearFilling d).replay = d.replay ∧
    (Dev.clearFilling d).downlink = d.downlink ∧
    (Dev.clearFilling d).uplink = d.uplink ∧
    (Dev.clearFilling d).remote = d.remote ∧
    (Dev.clearFilling d).watch = d.watch ∧
    (Dev.clearFilling d).feed = d.feed ∧
    (Dev.clearFilling d).freeCount = d.freeCount := by
  unfold Dev.clearFilling
  (repeat' split) <;> simp

/-- What `clearSlots` leaves alone. -/
@[simp] theorem Dev.clearSlots_frame (d : Dev) :
    (Dev.clearSlots d).resetAsserted = d.resetAsserted ∧
    (Dev.clearSlots d).mem = d.mem ∧
    (Dev.clearSlots d).plan = d.plan ∧
    (Dev.clearSlots d).report = d.report ∧
    (Dev.clearSlots d).counters = d.counters ∧
    (Dev.clearSlots d).tracker = d.tracker ∧
    (Dev.clearSlots d).timing = d.timing ∧
    (Dev.clearSlots d).live = d.live ∧
    (Dev.clearSlots d).replay = d.replay ∧
    (Dev.clearSlots d).downlink = d.downlink ∧
    (Dev.clearSlots d).uplink = d.uplink ∧
    (Dev.clearSlots d).remote = d.remote ∧
    (Dev.clearSlots d).watch = d.watch ∧
    (Dev.clearSlots d).feed = d.feed ∧
    (Dev.clearSlots d).freeCount = d.freeCount := by
  unfold Dev.clearSlots
  (repeat' split) <;> simp

/-- What `clearRing` leaves alone. -/
@[simp] theorem Dev.clearRing_frame (d : Dev) :
    (Dev.clearRing d).resetAsserted = d.resetAsserted ∧
    (Dev.clearRing d).mem = d.mem ∧
    (Dev.clearRing d).plan = d.plan ∧
    (Dev.clearRing d).report = d.report ∧
    (Dev.clearRing d).counters = d.counters ∧
    (Dev.clearRing d).timing = d.timing ∧
    (Dev.clearRing d).uplink = d.uplink ∧
    (Dev.clearRing d).remote = d.remote ∧
    (Dev.clearRing d).watch = d.watch ∧
    (Dev.clearRing d).feed = d.feed ∧
    (Dev.clearRing d).freeCount = d.freeCount := by
  simp [Dev.clearRing]

/-- What `apply` leaves alone. -/
@[simp] theorem Dev.apply_frame (w : PendingPlan) (d : Dev) :
    (Dev.apply w d).resetAsserted = d.resetAsserted ∧
    (Dev.apply w d).mem = d.mem ∧
    (Dev.apply w d).counters = d.counters ∧
    (Dev.apply w d).timing = d.timing ∧
    (Dev.apply w d).uplink = d.uplink ∧
    (Dev.apply w d).remote = d.remote ∧
    (Dev.apply w d).watch = d.watch ∧
    (Dev.apply w d).freeCount = d.freeCount := by
  simp [Dev.apply]

/-- What `applyFirst` leaves alone. -/
@[simp] theorem Dev.applyFirst_frame (w : PendingPlan) (d : Dev) :
    (Dev.applyFirst w d).resetAsserted = d.resetAsserted ∧
    (Dev.applyFirst w d).mem = d.mem ∧
    (Dev.applyFirst w d).counters = d.counters ∧
    (Dev.applyFirst w d).uplink = d.uplink ∧
    (Dev.applyFirst w d).remote = d.remote ∧
    (Dev.applyFirst w d).watch = d.watch ∧
    (Dev.applyFirst w d).freeCount = d.freeCount := by
  simp [Dev.applyFirst]

/-- What `acceptCommit` leaves alone. -/
@[simp] theorem Dev.acceptCommit_frame (p : Plan) (seq : BitVec 16) (d : Dev) :
    (Dev.acceptCommit p seq d).resetAsserted = d.resetAsserted ∧
    (Dev.acceptCommit p seq d).mem = d.mem ∧
    (Dev.acceptCommit p seq d).counters = d.counters ∧
    (Dev.acceptCommit p seq d).uplink = d.uplink ∧
    (Dev.acceptCommit p seq d).remote = d.remote ∧
    (Dev.acceptCommit p seq d).watch = d.watch ∧
    (Dev.acceptCommit p seq d).freeCount = d.freeCount := by
  unfold Dev.acceptCommit
  dsimp only
  (repeat' split) <;> simp

/-- What `rejectCommit` leaves alone. -/
@[simp] theorem Dev.rejectCommit_frame (reason : Group) (seq : BitVec 16) (d : Dev) :
    (Dev.rejectCommit reason seq d).resetAsserted = d.resetAsserted ∧
    (Dev.rejectCommit reason seq d).mem = d.mem ∧
    (Dev.rejectCommit reason seq d).tracker = d.tracker ∧
    (Dev.rejectCommit reason seq d).ring = d.ring ∧
    (Dev.rejectCommit reason seq d).timing = d.timing ∧
    (Dev.rejectCommit reason seq d).live = d.live ∧
    (Dev.rejectCommit reason seq d).replay = d.replay ∧
    (Dev.rejectCommit reason seq d).downlink = d.downlink ∧
    (Dev.rejectCommit reason seq d).uplink = d.uplink ∧
    (Dev.rejectCommit reason seq d).remote = d.remote ∧
    (Dev.rejectCommit reason seq d).watch = d.watch ∧
    (Dev.rejectCommit reason seq d).feed = d.feed ∧
    (Dev.rejectCommit reason seq d).freeCount = d.freeCount := by
  simp [Dev.rejectCommit]

/-- What `takeCommit` leaves alone. -/
@[simp] theorem Dev.takeCommit_frame (d : Dev) :
    (Dev.takeCommit d).resetAsserted = d.resetAsserted ∧
    (Dev.takeCommit d).mem = d.mem ∧
    (Dev.takeCommit d).uplink = d.uplink ∧
    (Dev.takeCommit d).remote = d.remote ∧
    (Dev.takeCommit d).watch = d.watch ∧
    (Dev.takeCommit d).freeCount = d.freeCount := by
  unfold Dev.takeCommit
  dsimp only
  (repeat' split) <;> simp

/-- What `acknowledge` leaves alone. -/
@[simp] theorem Dev.acknowledge_frame (v : Nat) (d : Dev) :
    (Dev.acknowledge v d).resetAsserted = d.resetAsserted ∧
    (Dev.acknowledge v d).mem = d.mem ∧
    (Dev.acknowledge v d).plan = d.plan ∧
    (Dev.acknowledge v d).counters = d.counters ∧
    (Dev.acknowledge v d).tracker = d.tracker ∧
    (Dev.acknowledge v d).ring = d.ring ∧
    (Dev.acknowledge v d).timing = d.timing ∧
    (Dev.acknowledge v d).live = d.live ∧
    (Dev.acknowledge v d).replay = d.replay ∧
    (Dev.acknowledge v d).downlink = d.downlink ∧
    (Dev.acknowledge v d).uplink = d.uplink ∧
    (Dev.acknowledge v d).remote = d.remote ∧
    (Dev.acknowledge v d).watch = d.watch ∧
    (Dev.acknowledge v d).feed = d.feed ∧
    (Dev.acknowledge v d).freeCount = d.freeCount := by
  simp [Dev.acknowledge]

/-- What `shadowBytes` leaves alone. -/
@[simp] theorem Dev.shadowBytes_frame (off : Nat) (bytes : List Byte) (d : Dev) :
    (Dev.shadowBytes off bytes d).resetAsserted = d.resetAsserted ∧
    (Dev.shadowBytes off bytes d).mem = d.mem ∧
    (Dev.shadowBytes off bytes d).report = d.report ∧
    (Dev.shadowBytes off bytes d).counters = d.counters ∧
    (Dev.shadowBytes off bytes d).tracker = d.tracker ∧
    (Dev.shadowBytes off bytes d).ring = d.ring ∧
    (Dev.shadowBytes off bytes d).timing = d.timing ∧
    (Dev.shadowBytes off bytes d).live = d.live ∧
    (Dev.shadowBytes off bytes d).replay = d.replay ∧
    (Dev.shadowBytes off bytes d).downlink = d.downlink ∧
    (Dev.shadowBytes off bytes d).uplink = d.uplink ∧
    (Dev.shadowBytes off bytes d).remote = d.remote ∧
    (Dev.shadowBytes off bytes d).watch = d.watch ∧
    (Dev.shadowBytes off bytes d).feed = d.feed ∧
    (Dev.shadowBytes off bytes d).freeCount = d.freeCount := by
  simp [Dev.shadowBytes]

/-- What `liveBytes` leaves alone. -/
@[simp] theorem Dev.liveBytes_frame (off : Nat) (bytes : List Byte) (d : Dev) :
    (Dev.liveBytes off bytes d).resetAsserted = d.resetAsserted ∧
    (Dev.liveBytes off bytes d).mem = d.mem ∧
    (Dev.liveBytes off bytes d).report = d.report ∧
    (Dev.liveBytes off bytes d).counters = d.counters ∧
    (Dev.liveBytes off bytes d).tracker = d.tracker ∧
    (Dev.liveBytes off bytes d).ring = d.ring ∧
    (Dev.liveBytes off bytes d).timing = d.timing ∧
    (Dev.liveBytes off bytes d).live = d.live ∧
    (Dev.liveBytes off bytes d).replay = d.replay ∧
    (Dev.liveBytes off bytes d).downlink = d.downlink ∧
    (Dev.liveBytes off bytes d).uplink = d.uplink ∧
    (Dev.liveBytes off bytes d).remote = d.remote ∧
    (Dev.liveBytes off bytes d).watch = d.watch ∧
    (Dev.liveBytes off bytes d).feed = d.feed ∧
    (Dev.liveBytes off bytes d).freeCount = d.freeCount := by
  simp [Dev.liveBytes]

/-- What `planPiece` leaves alone. -/
@[simp] theorem Dev.planPiece_frame (off : Nat) (bytes : List Byte) (d : Dev) :
    (Dev.planPiece off bytes d).resetAsserted = d.resetAsserted ∧
    (Dev.planPiece off bytes d).mem = d.mem ∧
    (Dev.planPiece off bytes d).uplink = d.uplink ∧
    (Dev.planPiece off bytes d).remote = d.remote ∧
    (Dev.planPiece off bytes d).watch = d.watch ∧
    (Dev.planPiece off bytes d).freeCount = d.freeCount := by
  unfold Dev.planPiece
  dsimp only
  (repeat' split) <;> simp

/-- What `updTiming` leaves alone. -/
@[simp] theorem Dev.updTiming_frame (f : Timing → Timing) (d : Dev) :
    (Dev.updTiming f d).resetAsserted = d.resetAsserted ∧
    (Dev.updTiming f d).mem = d.mem ∧
    (Dev.updTiming f d).plan = d.plan ∧
    (Dev.updTiming f d).report = d.report ∧
    (Dev.updTiming f d).counters = d.counters ∧
    (Dev.updTiming f d).tracker = d.tracker ∧
    (Dev.updTiming f d).ring = d.ring ∧
    (Dev.updTiming f d).live = d.live ∧
    (Dev.updTiming f d).replay = d.replay ∧
    (Dev.updTiming f d).downlink = d.downlink ∧
    (Dev.updTiming f d).uplink = d.uplink ∧
    (Dev.updTiming f d).remote = d.remote ∧
    (Dev.updTiming f d).watch = d.watch ∧
    (Dev.updTiming f d).feed = d.feed ∧
    (Dev.updTiming f d).freeCount = d.freeCount := by
  simp [Dev.updTiming]

/-- What `abandonEcho` leaves alone. -/
@[simp] theorem Dev.abandonEcho_frame (d : Dev) :
    (Dev.abandonEcho d).resetAsserted = d.resetAsserted ∧
    (Dev.abandonEcho d).mem = d.mem ∧
    (Dev.abandonEcho d).plan = d.plan ∧
    (Dev.abandonEcho d).report = d.report ∧
    (Dev.abandonEcho d).tracker = d.tracker ∧
    (Dev.abandonEcho d).ring = d.ring ∧
    (Dev.abandonEcho d).live = d.live ∧
    (Dev.abandonEcho d).replay = d.replay ∧
    (Dev.abandonEcho d).downlink = d.downlink ∧
    (Dev.abandonEcho d).uplink = d.uplink ∧
    (Dev.abandonEcho d).remote = d.remote ∧
    (Dev.abandonEcho d).watch = d.watch ∧
    (Dev.abandonEcho d).feed = d.feed ∧
    (Dev.abandonEcho d).freeCount = d.freeCount := by
  unfold Dev.abandonEcho
  (repeat' split) <;> simp

/-- What `sendEcho` leaves alone. -/
@[simp] theorem Dev.sendEcho_frame (d : Dev) :
    (Dev.sendEcho d).resetAsserted = d.resetAsserted ∧
    (Dev.sendEcho d).mem = d.mem ∧
    (Dev.sendEcho d).plan = d.plan ∧
    (Dev.sendEcho d).report = d.report ∧
    (Dev.sendEcho d).tracker = d.tracker ∧
    (Dev.sendEcho d).ring = d.ring ∧
    (Dev.sendEcho d).live = d.live ∧
    (Dev.sendEcho d).replay = d.replay ∧
    (Dev.sendEcho d).uplink = d.uplink ∧
    (Dev.sendEcho d).remote = d.remote ∧
    (Dev.sendEcho d).watch = d.watch ∧
    (Dev.sendEcho d).feed = d.feed ∧
    (Dev.sendEcho d).freeCount = d.freeCount := by
  simp [Dev.sendEcho]

/-- What `takeEcho` leaves alone. -/
@[simp] theorem Dev.takeEcho_frame (seq : BitVec 16) (stamp : HeadTime) (turnaround : BitVec 32) (arrival : HeadTime) (d : Dev) :
    (Dev.takeEcho seq stamp turnaround arrival d).resetAsserted = d.resetAsserted ∧
    (Dev.takeEcho seq stamp turnaround arrival d).mem = d.mem ∧
    (Dev.takeEcho seq stamp turnaround arrival d).plan = d.plan ∧
    (Dev.takeEcho seq stamp turnaround arrival d).report = d.report ∧
    (Dev.takeEcho seq stamp turnaround arrival d).tracker = d.tracker ∧
    (Dev.takeEcho seq stamp turnaround arrival d).ring = d.ring ∧
    (Dev.takeEcho seq stamp turnaround arrival d).live = d.live ∧
    (Dev.takeEcho seq stamp turnaround arrival d).replay = d.replay ∧
    (Dev.takeEcho seq stamp turnaround arrival d).downlink = d.downlink ∧
    (Dev.takeEcho seq stamp turnaround arrival d).uplink = d.uplink ∧
    (Dev.takeEcho seq stamp turnaround arrival d).remote = d.remote ∧
    (Dev.takeEcho seq stamp turnaround arrival d).watch = d.watch ∧
    (Dev.takeEcho seq stamp turnaround arrival d).feed = d.feed ∧
    (Dev.takeEcho seq stamp turnaround arrival d).freeCount = d.freeCount := by
  unfold Dev.takeEcho
  dsimp only
  (repeat' split) <;> simp

/-- What `anchorFrom` leaves alone. -/
@[simp] theorem Dev.anchorFrom_frame (p : Plan) (tr predicted : HeadTime) (d : Dev) :
    (Dev.anchorFrom p tr predicted d).resetAsserted = d.resetAsserted ∧
    (Dev.anchorFrom p tr predicted d).mem = d.mem ∧
    (Dev.anchorFrom p tr predicted d).plan = d.plan ∧
    (Dev.anchorFrom p tr predicted d).tracker = d.tracker ∧
    (Dev.anchorFrom p tr predicted d).ring = d.ring ∧
    (Dev.anchorFrom p tr predicted d).live = d.live ∧
    (Dev.anchorFrom p tr predicted d).replay = d.replay ∧
    (Dev.anchorFrom p tr predicted d).downlink = d.downlink ∧
    (Dev.anchorFrom p tr predicted d).uplink = d.uplink ∧
    (Dev.anchorFrom p tr predicted d).remote = d.remote ∧
    (Dev.anchorFrom p tr predicted d).watch = d.watch ∧
    (Dev.anchorFrom p tr predicted d).feed = d.feed ∧
    (Dev.anchorFrom p tr predicted d).freeCount = d.freeCount := by
  unfold Dev.anchorFrom
  dsimp only
  (repeat' split) <;> simp

/-- What `takeReference` leaves alone. -/
@[simp] theorem Dev.takeReference_frame (count : BitVec 32) (tr : HeadTime) (d : Dev) :
    (Dev.takeReference count tr d).resetAsserted = d.resetAsserted ∧
    (Dev.takeReference count tr d).mem = d.mem ∧
    (Dev.takeReference count tr d).plan = d.plan ∧
    (Dev.takeReference count tr d).tracker = d.tracker ∧
    (Dev.takeReference count tr d).ring = d.ring ∧
    (Dev.takeReference count tr d).live = d.live ∧
    (Dev.takeReference count tr d).replay = d.replay ∧
    (Dev.takeReference count tr d).downlink = d.downlink ∧
    (Dev.takeReference count tr d).uplink = d.uplink ∧
    (Dev.takeReference count tr d).remote = d.remote ∧
    (Dev.takeReference count tr d).watch = d.watch ∧
    (Dev.takeReference count tr d).feed = d.feed ∧
    (Dev.takeReference count tr d).freeCount = d.freeCount := by
  unfold Dev.takeReference
  dsimp only
  (repeat' split) <;> simp

/-- What `loseReference` leaves alone. -/
@[simp] theorem Dev.loseReference_frame (d : Dev) :
    (Dev.loseReference d).resetAsserted = d.resetAsserted ∧
    (Dev.loseReference d).mem = d.mem ∧
    (Dev.loseReference d).plan = d.plan ∧
    (Dev.loseReference d).counters = d.counters ∧
    (Dev.loseReference d).tracker = d.tracker ∧
    (Dev.loseReference d).ring = d.ring ∧
    (Dev.loseReference d).live = d.live ∧
    (Dev.loseReference d).replay = d.replay ∧
    (Dev.loseReference d).downlink = d.downlink ∧
    (Dev.loseReference d).uplink = d.uplink ∧
    (Dev.loseReference d).remote = d.remote ∧
    (Dev.loseReference d).watch = d.watch ∧
    (Dev.loseReference d).feed = d.feed ∧
    (Dev.loseReference d).freeCount = d.freeCount := by
  unfold Dev.loseReference
  dsimp only
  (repeat' split) <;> simp

/-- What `examinePending` leaves alone. -/
@[simp] theorem Dev.examinePending_frame (a : HeadTime) (d : Dev) :
    (Dev.examinePending a d).resetAsserted = d.resetAsserted ∧
    (Dev.examinePending a d).mem = d.mem ∧
    (Dev.examinePending a d).counters = d.counters ∧
    (Dev.examinePending a d).timing = d.timing ∧
    (Dev.examinePending a d).uplink = d.uplink ∧
    (Dev.examinePending a d).remote = d.remote ∧
    (Dev.examinePending a d).watch = d.watch ∧
    (Dev.examinePending a d).freeCount = d.freeCount := by
  unfold Dev.examinePending
  (repeat' split) <;> simp

/-- What `takeAnchor` leaves alone. -/
@[simp] theorem Dev.takeAnchor_frame (a : HeadTime) (d : Dev) :
    (Dev.takeAnchor a d).resetAsserted = d.resetAsserted ∧
    (Dev.takeAnchor a d).mem = d.mem ∧
    (Dev.takeAnchor a d).uplink = d.uplink ∧
    (Dev.takeAnchor a d).remote = d.remote ∧
    (Dev.takeAnchor a d).watch = d.watch ∧
    (Dev.takeAnchor a d).freeCount = d.freeCount := by
  unfold Dev.takeAnchor
  dsimp only
  (repeat' split) <;> simp

/-- What `timedStatus` leaves alone. -/
@[simp] theorem Dev.timedStatus_frame (d : Dev) :
    (Dev.timedStatus d).resetAsserted = d.resetAsserted ∧
    (Dev.timedStatus d).mem = d.mem ∧
    (Dev.timedStatus d).plan = d.plan ∧
    (Dev.timedStatus d).report = d.report ∧
    (Dev.timedStatus d).tracker = d.tracker ∧
    (Dev.timedStatus d).ring = d.ring ∧
    (Dev.timedStatus d).live = d.live ∧
    (Dev.timedStatus d).replay = d.replay ∧
    (Dev.timedStatus d).uplink = d.uplink ∧
    (Dev.timedStatus d).remote = d.remote ∧
    (Dev.timedStatus d).watch = d.watch ∧
    (Dev.timedStatus d).freeCount = d.freeCount := by
  simp [Dev.timedStatus]

/-- What `timedReport` leaves alone. -/
@[simp] theorem Dev.timedReport_frame (d : Dev) :
    (Dev.timedReport d).resetAsserted = d.resetAsserted ∧
    (Dev.timedReport d).mem = d.mem ∧
    (Dev.timedReport d).plan = d.plan ∧
    (Dev.timedReport d).counters = d.counters ∧
    (Dev.timedReport d).tracker = d.tracker ∧
    (Dev.timedReport d).ring = d.ring ∧
    (Dev.timedReport d).timing = d.timing ∧
    (Dev.timedReport d).live = d.live ∧
    (Dev.timedReport d).replay = d.replay ∧
    (Dev.timedReport d).downlink = d.downlink ∧
    (Dev.timedReport d).uplink = d.uplink ∧
    (Dev.timedReport d).remote = d.remote ∧
    (Dev.timedReport d).watch = d.watch ∧
    (Dev.timedReport d).feed = d.feed ∧
    (Dev.timedReport d).freeCount = d.freeCount := by
  simp [Dev.timedReport]

/-- What `takeInGroup` leaves alone. -/
@[simp] theorem Dev.takeInGroup_frame (c : InGroup) (rest : List InGroup) (d : Dev) :
    (Dev.takeInGroup c rest d).resetAsserted = d.resetAsserted ∧
    (Dev.takeInGroup c rest d).mem = d.mem ∧
    (Dev.takeInGroup c rest d).plan = d.plan ∧
    (Dev.takeInGroup c rest d).report = d.report ∧
    (Dev.takeInGroup c rest d).uplink = d.uplink ∧
    (Dev.takeInGroup c rest d).remote = d.remote ∧
    (Dev.takeInGroup c rest d).watch = d.watch ∧
    (Dev.takeInGroup c rest d).feed = d.feed ∧
    (Dev.takeInGroup c rest d).freeCount = d.freeCount := by
  unfold Dev.takeInGroup
  dsimp only
  (repeat' split) <;> simp

/-- What `setEntry` leaves alone. -/
@[simp] theorem Dev.setEntry_frame (id : Nat) (x : Option WatchEntry) (d : Dev) :
    (Dev.setEntry id x d).resetAsserted = d.resetAsserted ∧
    (Dev.setEntry id x d).mem = d.mem ∧
    (Dev.setEntry id x d).plan = d.plan ∧
    (Dev.setEntry id x d).report = d.report ∧
    (Dev.setEntry id x d).counters = d.counters ∧
    (Dev.setEntry id x d).tracker = d.tracker ∧
    (Dev.setEntry id x d).ring = d.ring ∧
    (Dev.setEntry id x d).timing = d.timing ∧
    (Dev.setEntry id x d).live = d.live ∧
    (Dev.setEntry id x d).replay = d.replay ∧
    (Dev.setEntry id x d).downlink = d.downlink ∧
    (Dev.setEntry id x d).uplink = d.uplink ∧
    (Dev.setEntry id x d).remote = d.remote ∧
    (Dev.setEntry id x d).feed = d.feed ∧
    (Dev.setEntry id x d).freeCount = d.freeCount := by
  simp [Dev.setEntry]

/-- What `judgeHit` leaves alone. -/
@[simp] theorem Dev.judgeHit_frame (id : Nat) (e : WatchEntry) (time : HeadTime) (d : Dev) :
    (Dev.judgeHit id e time d).resetAsserted = d.resetAsserted ∧
    (Dev.judgeHit id e time d).mem = d.mem ∧
    (Dev.judgeHit id e time d).plan = d.plan ∧
    (Dev.judgeHit id e time d).report = d.report ∧
    (Dev.judgeHit id e time d).tracker = d.tracker ∧
    (Dev.judgeHit id e time d).ring = d.ring ∧
    (Dev.judgeHit id e time d).timing = d.timing ∧
    (Dev.judgeHit id e time d).live = d.live ∧
    (Dev.judgeHit id e time d).replay = d.replay ∧
    (Dev.judgeHit id e time d).uplink = d.uplink ∧
    (Dev.judgeHit id e time d).remote = d.remote ∧
    (Dev.judgeHit id e time d).feed = d.feed ∧
    (Dev.judgeHit id e time d).freeCount = d.freeCount := by
  unfold Dev.judgeHit
  dsimp only
  (repeat' split) <;> simp

/-- What `watchHit` leaves alone. -/
@[simp] theorem Dev.watchHit_frame (id a : Nat) (bytes : List Byte) (d : Dev) :
    (Dev.watchHit id a bytes d).resetAsserted = d.resetAsserted ∧
    (Dev.watchHit id a bytes d).mem = d.mem ∧
    (Dev.watchHit id a bytes d).plan = d.plan ∧
    (Dev.watchHit id a bytes d).report = d.report ∧
    (Dev.watchHit id a bytes d).tracker = d.tracker ∧
    (Dev.watchHit id a bytes d).ring = d.ring ∧
    (Dev.watchHit id a bytes d).timing = d.timing ∧
    (Dev.watchHit id a bytes d).live = d.live ∧
    (Dev.watchHit id a bytes d).replay = d.replay ∧
    (Dev.watchHit id a bytes d).uplink = d.uplink ∧
    (Dev.watchHit id a bytes d).remote = d.remote ∧
    (Dev.watchHit id a bytes d).feed = d.feed ∧
    (Dev.watchHit id a bytes d).freeCount = d.freeCount := by
  unfold Dev.watchHit
  (repeat' split) <;> simp

/-- What `seedHit` leaves alone. -/
@[simp] theorem Dev.seedHit_frame (a : Nat) (bytes : List Byte) (d : Dev) :
    (Dev.seedHit a bytes d).resetAsserted = d.resetAsserted ∧
    (Dev.seedHit a bytes d).mem = d.mem ∧
    (Dev.seedHit a bytes d).plan = d.plan ∧
    (Dev.seedHit a bytes d).report = d.report ∧
    (Dev.seedHit a bytes d).counters = d.counters ∧
    (Dev.seedHit a bytes d).tracker = d.tracker ∧
    (Dev.seedHit a bytes d).ring = d.ring ∧
    (Dev.seedHit a bytes d).timing = d.timing ∧
    (Dev.seedHit a bytes d).live = d.live ∧
    (Dev.seedHit a bytes d).replay = d.replay ∧
    (Dev.seedHit a bytes d).downlink = d.downlink ∧
    (Dev.seedHit a bytes d).uplink = d.uplink ∧
    (Dev.seedHit a bytes d).remote = d.remote ∧
    (Dev.seedHit a bytes d).feed = d.feed ∧
    (Dev.seedHit a bytes d).freeCount = d.freeCount := by
  unfold Dev.seedHit
  (repeat' split) <;> simp

/-- What `installSeed` leaves alone. -/
@[simp] theorem Dev.installSeed_frame (data : List Byte) (d : Dev) :
    (Dev.installSeed data d).resetAsserted = d.resetAsserted ∧
    (Dev.installSeed data d).mem = d.mem ∧
    (Dev.installSeed data d).plan = d.plan ∧
    (Dev.installSeed data d).report = d.report ∧
    (Dev.installSeed data d).tracker = d.tracker ∧
    (Dev.installSeed data d).ring = d.ring ∧
    (Dev.installSeed data d).timing = d.timing ∧
    (Dev.installSeed data d).live = d.live ∧
    (Dev.installSeed data d).replay = d.replay ∧
    (Dev.installSeed data d).uplink = d.uplink ∧
    (Dev.installSeed data d).remote = d.remote ∧
    (Dev.installSeed data d).feed = d.feed ∧
    (Dev.installSeed data d).freeCount = d.freeCount := by
  unfold Dev.installSeed
  dsimp only
  (repeat' split) <;> simp

/-- What `discardSeed` leaves alone. -/
@[simp] theorem Dev.discardSeed_frame (d : Dev) :
    (Dev.discardSeed d).resetAsserted = d.resetAsserted ∧
    (Dev.discardSeed d).mem = d.mem ∧
    (Dev.discardSeed d).plan = d.plan ∧
    (Dev.discardSeed d).report = d.report ∧
    (Dev.discardSeed d).counters = d.counters ∧
    (Dev.discardSeed d).tracker = d.tracker ∧
    (Dev.discardSeed d).ring = d.ring ∧
    (Dev.discardSeed d).timing = d.timing ∧
    (Dev.discardSeed d).live = d.live ∧
    (Dev.discardSeed d).replay = d.replay ∧
    (Dev.discardSeed d).downlink = d.downlink ∧
    (Dev.discardSeed d).uplink = d.uplink ∧
    (Dev.discardSeed d).remote = d.remote ∧
    (Dev.discardSeed d).feed = d.feed ∧
    (Dev.discardSeed d).freeCount = d.freeCount := by
  simp [Dev.discardSeed]

/-- What `toPlanUnit` leaves alone. -/
@[simp] theorem Dev.toPlanUnit_frame (k : Nat) (piece : List Byte) (d : Dev) :
    (Dev.toPlanUnit k piece d).resetAsserted = d.resetAsserted ∧
    (Dev.toPlanUnit k piece d).mem = d.mem ∧
    (Dev.toPlanUnit k piece d).uplink = d.uplink ∧
    (Dev.toPlanUnit k piece d).remote = d.remote ∧
    (Dev.toPlanUnit k piece d).watch = d.watch ∧
    (Dev.toPlanUnit k piece d).freeCount = d.freeCount := by
  unfold Dev.toPlanUnit
  (repeat' split) <;> simp

/-- What `toTracker` leaves alone. -/
@[simp] theorem Dev.toTracker_frame (plan : Option Plan) (k : Nat) (piece : List Byte) (d : Dev) :
    (Dev.toTracker plan k piece d).resetAsserted = d.resetAsserted ∧
    (Dev.toTracker plan k piece d).mem = d.mem ∧
    (Dev.toTracker plan k piece d).plan = d.plan ∧
    (Dev.toTracker plan k piece d).report = d.report ∧
    (Dev.toTracker plan k piece d).timing = d.timing ∧
    (Dev.toTracker plan k piece d).uplink = d.uplink ∧
    (Dev.toTracker plan k piece d).remote = d.remote ∧
    (Dev.toTracker plan k piece d).watch = d.watch ∧
    (Dev.toTracker plan k piece d).feed = d.feed ∧
    (Dev.toTracker plan k piece d).freeCount = d.freeCount := by
  cases plan with
  | none => simp [Dev.toTracker]
  | some p =>
    simp only [Dev.toTracker]
    generalize p.trackerPieces k piece.length = l
    induction l generalizing d with
    | nil => simp
    | cons q l ih => simp [ih]

/-- What `toWatches` leaves alone. -/
@[simp] theorem Dev.toWatches_frame (w : Watch) (a : Nat) (bytes : List Byte) (k : Nat) (piece : List Byte) (d : Dev) :
    (Dev.toWatches w a bytes k piece d).resetAsserted = d.resetAsserted ∧
    (Dev.toWatches w a bytes k piece d).mem = d.mem ∧
    (Dev.toWatches w a bytes k piece d).plan = d.plan ∧
    (Dev.toWatches w a bytes k piece d).report = d.report ∧
    (Dev.toWatches w a bytes k piece d).tracker = d.tracker ∧
    (Dev.toWatches w a bytes k piece d).ring = d.ring ∧
    (Dev.toWatches w a bytes k piece d).timing = d.timing ∧
    (Dev.toWatches w a bytes k piece d).live = d.live ∧
    (Dev.toWatches w a bytes k piece d).replay = d.replay ∧
    (Dev.toWatches w a bytes k piece d).uplink = d.uplink ∧
    (Dev.toWatches w a bytes k piece d).remote = d.remote ∧
    (Dev.toWatches w a bytes k piece d).feed = d.feed ∧
    (Dev.toWatches w a bytes k piece d).freeCount = d.freeCount := by
  have h : ∀ (l : List Nat) (d : Dev), (l.foldl (fun d id => d.watchHit id a bytes) d).resetAsserted = d.resetAsserted ∧
      (l.foldl (fun d id => d.watchHit id a bytes) d).mem = d.mem ∧
      (l.foldl (fun d id => d.watchHit id a bytes) d).plan = d.plan ∧
      (l.foldl (fun d id => d.watchHit id a bytes) d).report = d.report ∧
      (l.foldl (fun d id => d.watchHit id a bytes) d).tracker = d.tracker ∧
      (l.foldl (fun d id => d.watchHit id a bytes) d).ring = d.ring ∧
      (l.foldl (fun d id => d.watchHit id a bytes) d).timing = d.timing ∧
      (l.foldl (fun d id => d.watchHit id a bytes) d).live = d.live ∧
      (l.foldl (fun d id => d.watchHit id a bytes) d).replay = d.replay ∧
      (l.foldl (fun d id => d.watchHit id a bytes) d).uplink = d.uplink ∧
      (l.foldl (fun d id => d.watchHit id a bytes) d).remote = d.remote ∧
      (l.foldl (fun d id => d.watchHit id a bytes) d).feed = d.feed ∧
      (l.foldl (fun d id => d.watchHit id a bytes) d).freeCount = d.freeCount := by
    intro l
    induction l with
    | nil => simp
    | cons q l ih => intro d; simp [ih]
  unfold Dev.toWatches
  dsimp only
  split <;> simp [h]

/-- What `takePiece` leaves alone. -/
@[simp] theorem Dev.takePiece_frame (plan : Option Plan) (w : Watch) (a : Nat) (bytes : List Byte) (piece : Nat × List Byte) (d : Dev) :
    (Dev.takePiece plan w a bytes piece d).resetAsserted = d.resetAsserted ∧
    (Dev.takePiece plan w a bytes piece d).mem = d.mem ∧
    (Dev.takePiece plan w a bytes piece d).uplink = d.uplink ∧
    (Dev.takePiece plan w a bytes piece d).remote = d.remote ∧
    (Dev.takePiece plan w a bytes piece d).freeCount = d.freeCount := by
  simp [Dev.takePiece]

/-- What `classify` leaves alone. -/
@[simp] theorem Dev.classify_frame (a : Nat) (bytes : List Byte) (d : Dev) :
    (Dev.classify a bytes d).resetAsserted = d.resetAsserted ∧
    (Dev.classify a bytes d).mem = d.mem ∧
    (Dev.classify a bytes d).uplink = d.uplink ∧
    (Dev.classify a bytes d).remote = d.remote ∧
    (Dev.classify a bytes d).freeCount = d.freeCount := by
  unfold Dev.classify
  generalize d.pieces a bytes = l
  generalize d.plan? = plan
  generalize d.watch = w
  induction l generalizing d with
  | nil => simp
  | cons q l ih => simp [ih]

/-- What `issue` leaves alone. -/
@[simp] theorem Dev.issue_frame (owner : Owner) (op : BusOp) (handle : List HandleEntry) (d : Dev) :
    (Dev.issue owner op handle d).resetAsserted = d.resetAsserted ∧
    (Dev.issue owner op handle d).plan = d.plan ∧
    (Dev.issue owner op handle d).report = d.report ∧
    (Dev.issue owner op handle d).counters = d.counters ∧
    (Dev.issue owner op handle d).tracker = d.tracker ∧
    (Dev.issue owner op handle d).ring = d.ring ∧
    (Dev.issue owner op handle d).timing = d.timing ∧
    (Dev.issue owner op handle d).live = d.live ∧
    (Dev.issue owner op handle d).replay = d.replay ∧
    (Dev.issue owner op handle d).downlink = d.downlink ∧
    (Dev.issue owner op handle d).uplink = d.uplink ∧
    (Dev.issue owner op handle d).remote = d.remote ∧
    (Dev.issue owner op handle d).watch = d.watch ∧
    (Dev.issue owner op handle d).feed = d.feed ∧
    (Dev.issue owner op handle d).freeCount = d.freeCount := by
  simp [Dev.issue]

/-- What `issueWrite` leaves alone. -/
@[simp] theorem Dev.issueWrite_frame (owner : Owner) (a : Addr) (bytes : List Byte) (d : Dev) :
    (Dev.issueWrite owner a bytes d).resetAsserted = d.resetAsserted ∧
    (Dev.issueWrite owner a bytes d).uplink = d.uplink ∧
    (Dev.issueWrite owner a bytes d).remote = d.remote ∧
    (Dev.issueWrite owner a bytes d).freeCount = d.freeCount := by
  simp [Dev.issueWrite]

/-- What `grantPassing` leaves alone. -/
@[simp] theorem Dev.grantPassing_frame (d : Dev) :
    (Dev.grantPassing d).resetAsserted = d.resetAsserted ∧
    (Dev.grantPassing d).uplink = d.uplink ∧
    (Dev.grantPassing d).remote = d.remote ∧
    (Dev.grantPassing d).freeCount = d.freeCount := by
  unfold Dev.grantPassing
  dsimp only
  (repeat' split) <;> simp

/-- What `grantFetch` leaves alone. -/
@[simp] theorem Dev.grantFetch_frame (r : ReaderId) (d : Dev) :
    (Dev.grantFetch r d).resetAsserted = d.resetAsserted ∧
    (Dev.grantFetch r d).plan = d.plan ∧
    (Dev.grantFetch r d).report = d.report ∧
    (Dev.grantFetch r d).counters = d.counters ∧
    (Dev.grantFetch r d).tracker = d.tracker ∧
    (Dev.grantFetch r d).ring = d.ring ∧
    (Dev.grantFetch r d).timing = d.timing ∧
    (Dev.grantFetch r d).downlink = d.downlink ∧
    (Dev.grantFetch r d).uplink = d.uplink ∧
    (Dev.grantFetch r d).remote = d.remote ∧
    (Dev.grantFetch r d).watch = d.watch ∧
    (Dev.grantFetch r d).feed = d.feed ∧
    (Dev.grantFetch r d).freeCount = d.freeCount := by
  unfold Dev.grantFetch
  dsimp only
  (repeat' split) <;> simp

/-- What `startSeeding` leaves alone. -/
@[simp] theorem Dev.startSeeding_frame (d : Dev) :
    (Dev.startSeeding d).resetAsserted = d.resetAsserted ∧
    (Dev.startSeeding d).mem = d.mem ∧
    (Dev.startSeeding d).plan = d.plan ∧
    (Dev.startSeeding d).report = d.report ∧
    (Dev.startSeeding d).counters = d.counters ∧
    (Dev.startSeeding d).tracker = d.tracker ∧
    (Dev.startSeeding d).ring = d.ring ∧
    (Dev.startSeeding d).timing = d.timing ∧
    (Dev.startSeeding d).live = d.live ∧
    (Dev.startSeeding d).replay = d.replay ∧
    (Dev.startSeeding d).downlink = d.downlink ∧
    (Dev.startSeeding d).uplink = d.uplink ∧
    (Dev.startSeeding d).remote = d.remote ∧
    (Dev.startSeeding d).feed = d.feed ∧
    (Dev.startSeeding d).freeCount = d.freeCount := by
  unfold Dev.startSeeding
  (repeat' split) <;> simp

/-- What `holdPort` leaves alone. -/
@[simp] theorem Dev.holdPort_frame (b : Bool) (d : Dev) :
    (Dev.holdPort b d).resetAsserted = d.resetAsserted ∧
    (Dev.holdPort b d).plan = d.plan ∧
    (Dev.holdPort b d).report = d.report ∧
    (Dev.holdPort b d).counters = d.counters ∧
    (Dev.holdPort b d).tracker = d.tracker ∧
    (Dev.holdPort b d).ring = d.ring ∧
    (Dev.holdPort b d).timing = d.timing ∧
    (Dev.holdPort b d).live = d.live ∧
    (Dev.holdPort b d).replay = d.replay ∧
    (Dev.holdPort b d).downlink = d.downlink ∧
    (Dev.holdPort b d).uplink = d.uplink ∧
    (Dev.holdPort b d).remote = d.remote ∧
    (Dev.holdPort b d).watch = d.watch ∧
    (Dev.holdPort b d).feed = d.feed ∧
    (Dev.holdPort b d).freeCount = d.freeCount := by
  simp [Dev.holdPort]

/-- What `grantRemote` leaves alone. -/
@[simp] theorem Dev.grantRemote_frame (d : Dev) :
    (Dev.grantRemote d).resetAsserted = d.resetAsserted ∧
    (Dev.grantRemote d).uplink = d.uplink ∧
    (Dev.grantRemote d).freeCount = d.freeCount := by
  unfold Dev.grantRemote
  dsimp only
  (repeat' split) <;> simp

/-- What `afterReportGrant` leaves alone. -/
@[simp] theorem Dev.afterReportGrant_frame (w : ReportWrite) (d : Dev) :
    (Dev.afterReportGrant w d).resetAsserted = d.resetAsserted ∧
    (Dev.afterReportGrant w d).mem = d.mem ∧
    (Dev.afterReportGrant w d).plan = d.plan ∧
    (Dev.afterReportGrant w d).counters = d.counters ∧
    (Dev.afterReportGrant w d).tracker = d.tracker ∧
    (Dev.afterReportGrant w d).ring = d.ring ∧
    (Dev.afterReportGrant w d).timing = d.timing ∧
    (Dev.afterReportGrant w d).live = d.live ∧
    (Dev.afterReportGrant w d).replay = d.replay ∧
    (Dev.afterReportGrant w d).downlink = d.downlink ∧
    (Dev.afterReportGrant w d).uplink = d.uplink ∧
    (Dev.afterReportGrant w d).remote = d.remote ∧
    (Dev.afterReportGrant w d).watch = d.watch ∧
    (Dev.afterReportGrant w d).feed = d.feed ∧
    (Dev.afterReportGrant w d).freeCount = d.freeCount := by
  unfold Dev.afterReportGrant
  dsimp only
  (repeat' split) <;> simp

/-- What `grantReport` leaves alone. -/
@[simp] theorem Dev.grantReport_frame (d : Dev) :
    (Dev.grantReport d).resetAsserted = d.resetAsserted ∧
    (Dev.grantReport d).plan = d.plan ∧
    (Dev.grantReport d).counters = d.counters ∧
    (Dev.grantReport d).tracker = d.tracker ∧
    (Dev.grantReport d).ring = d.ring ∧
    (Dev.grantReport d).timing = d.timing ∧
    (Dev.grantReport d).live = d.live ∧
    (Dev.grantReport d).replay = d.replay ∧
    (Dev.grantReport d).downlink = d.downlink ∧
    (Dev.grantReport d).uplink = d.uplink ∧
    (Dev.grantReport d).remote = d.remote ∧
    (Dev.grantReport d).watch = d.watch ∧
    (Dev.grantReport d).feed = d.feed ∧
    (Dev.grantReport d).freeCount = d.freeCount := by
  unfold Dev.grantReport
  dsimp only
  (repeat' split) <;> simp

/-- What `grantFeed` leaves alone. -/
@[simp] theorem Dev.grantFeed_frame (d : Dev) :
    (Dev.grantFeed d).resetAsserted = d.resetAsserted ∧
    (Dev.grantFeed d).plan = d.plan ∧
    (Dev.grantFeed d).report = d.report ∧
    (Dev.grantFeed d).counters = d.counters ∧
    (Dev.grantFeed d).tracker = d.tracker ∧
    (Dev.grantFeed d).ring = d.ring ∧
    (Dev.grantFeed d).timing = d.timing ∧
    (Dev.grantFeed d).live = d.live ∧
    (Dev.grantFeed d).replay = d.replay ∧
    (Dev.grantFeed d).downlink = d.downlink ∧
    (Dev.grantFeed d).uplink = d.uplink ∧
    (Dev.grantFeed d).remote = d.remote ∧
    (Dev.grantFeed d).watch = d.watch ∧
    (Dev.grantFeed d).freeCount = d.freeCount := by
  unfold Dev.grantFeed
  dsimp only
  (repeat' split) <;> simp

/-- What `grantTo` leaves alone. -/
@[simp] theorem Dev.grantTo_frame (x : Party) (d : Dev) :
    (Dev.grantTo x d).resetAsserted = d.resetAsserted ∧
    (Dev.grantTo x d).uplink = d.uplink ∧
    (Dev.grantTo x d).freeCount = d.freeCount := by
  unfold Dev.grantTo
  (repeat' split) <;> simp

/-- What `setSteal` leaves alone. -/
@[simp] theorem Dev.setSteal_frame (n : Nat) (d : Dev) :
    (Dev.setSteal n d).resetAsserted = d.resetAsserted ∧
    (Dev.setSteal n d).plan = d.plan ∧
    (Dev.setSteal n d).report = d.report ∧
    (Dev.setSteal n d).counters = d.counters ∧
    (Dev.setSteal n d).tracker = d.tracker ∧
    (Dev.setSteal n d).ring = d.ring ∧
    (Dev.setSteal n d).timing = d.timing ∧
    (Dev.setSteal n d).live = d.live ∧
    (Dev.setSteal n d).replay = d.replay ∧
    (Dev.setSteal n d).downlink = d.downlink ∧
    (Dev.setSteal n d).uplink = d.uplink ∧
    (Dev.setSteal n d).remote = d.remote ∧
    (Dev.setSteal n d).watch = d.watch ∧
    (Dev.setSteal n d).feed = d.feed ∧
    (Dev.setSteal n d).freeCount = d.freeCount := by
  simp [Dev.setSteal]

/-- What `grant` leaves alone. -/
@[simp] theorem Dev.grant_frame (d : Dev) :
    (Dev.grant d).resetAsserted = d.resetAsserted ∧
    (Dev.grant d).uplink = d.uplink ∧
    (Dev.grant d).freeCount = d.freeCount := by
  unfold Dev.grant
  (repeat' split) <;> simp

end Sys2Proof.Machine
end

