-- ==== Sys2Proof/Laws/FramesC.lean ====
section
/-! SUPPORT. What the operations of Executor, Replies, Uplinks, Downlinks and the commands leave alone: every part of the block that an operation does not name. -/

namespace Sys2Proof.Machine

/-- What `setExecutor` leaves alone. -/
@[simp] theorem Dev.setExecutor_frame (x : Executor) (d : Dev) :
    (Dev.setExecutor x d).resetAsserted = d.resetAsserted ∧
    (Dev.setExecutor x d).mem = d.mem ∧
    (Dev.setExecutor x d).plan = d.plan ∧
    (Dev.setExecutor x d).report = d.report ∧
    (Dev.setExecutor x d).counters = d.counters ∧
    (Dev.setExecutor x d).tracker = d.tracker ∧
    (Dev.setExecutor x d).ring = d.ring ∧
    (Dev.setExecutor x d).timing = d.timing ∧
    (Dev.setExecutor x d).live = d.live ∧
    (Dev.setExecutor x d).replay = d.replay ∧
    (Dev.setExecutor x d).downlink = d.downlink ∧
    (Dev.setExecutor x d).remote = d.remote ∧
    (Dev.setExecutor x d).watch = d.watch ∧
    (Dev.setExecutor x d).feed = d.feed ∧
    (Dev.setExecutor x d).freeCount = d.freeCount := by
  simp [Dev.setExecutor]

/-- What `offerResponse` leaves alone. -/
@[simp] theorem Dev.offerResponse_frame (e : Entry) (d : Dev) :
    (Dev.offerResponse e d).resetAsserted = d.resetAsserted ∧
    (Dev.offerResponse e d).mem = d.mem ∧
    (Dev.offerResponse e d).plan = d.plan ∧
    (Dev.offerResponse e d).report = d.report ∧
    (Dev.offerResponse e d).counters = d.counters ∧
    (Dev.offerResponse e d).tracker = d.tracker ∧
    (Dev.offerResponse e d).ring = d.ring ∧
    (Dev.offerResponse e d).timing = d.timing ∧
    (Dev.offerResponse e d).live = d.live ∧
    (Dev.offerResponse e d).replay = d.replay ∧
    (Dev.offerResponse e d).remote = d.remote ∧
    (Dev.offerResponse e d).watch = d.watch ∧
    (Dev.offerResponse e d).feed = d.feed ∧
    (Dev.offerResponse e d).freeCount = d.freeCount := by
  unfold Dev.offerResponse
  (repeat' split) <;> simp

/-- What `respond` leaves alone. -/
@[simp] theorem Dev.respond_frame (kind : Byte) (tag : Tag) (status : Status) (data : List Byte) (d : Dev) :
    (Dev.respond kind tag status data d).resetAsserted = d.resetAsserted ∧
    (Dev.respond kind tag status data d).mem = d.mem ∧
    (Dev.respond kind tag status data d).plan = d.plan ∧
    (Dev.respond kind tag status data d).report = d.report ∧
    (Dev.respond kind tag status data d).counters = d.counters ∧
    (Dev.respond kind tag status data d).tracker = d.tracker ∧
    (Dev.respond kind tag status data d).ring = d.ring ∧
    (Dev.respond kind tag status data d).timing = d.timing ∧
    (Dev.respond kind tag status data d).live = d.live ∧
    (Dev.respond kind tag status data d).replay = d.replay ∧
    (Dev.respond kind tag status data d).remote = d.remote ∧
    (Dev.respond kind tag status data d).watch = d.watch ∧
    (Dev.respond kind tag status data d).feed = d.feed ∧
    (Dev.respond kind tag status data d).freeCount = d.freeCount := by
  simp [Dev.respond]

/-- What `reofferResponse` leaves alone. -/
@[simp] theorem Dev.reofferResponse_frame (d : Dev) :
    (Dev.reofferResponse d).resetAsserted = d.resetAsserted ∧
    (Dev.reofferResponse d).mem = d.mem ∧
    (Dev.reofferResponse d).plan = d.plan ∧
    (Dev.reofferResponse d).report = d.report ∧
    (Dev.reofferResponse d).counters = d.counters ∧
    (Dev.reofferResponse d).tracker = d.tracker ∧
    (Dev.reofferResponse d).ring = d.ring ∧
    (Dev.reofferResponse d).timing = d.timing ∧
    (Dev.reofferResponse d).live = d.live ∧
    (Dev.reofferResponse d).replay = d.replay ∧
    (Dev.reofferResponse d).remote = d.remote ∧
    (Dev.reofferResponse d).watch = d.watch ∧
    (Dev.reofferResponse d).feed = d.feed ∧
    (Dev.reofferResponse d).freeCount = d.freeCount := by
  unfold Dev.reofferResponse
  (repeat' split) <;> simp

/-- What `popOrder` leaves alone. -/
@[simp] theorem Dev.popOrder_frame (d : Dev) :
    (Dev.popOrder d).resetAsserted = d.resetAsserted ∧
    (Dev.popOrder d).mem = d.mem ∧
    (Dev.popOrder d).plan = d.plan ∧
    (Dev.popOrder d).report = d.report ∧
    (Dev.popOrder d).counters = d.counters ∧
    (Dev.popOrder d).tracker = d.tracker ∧
    (Dev.popOrder d).ring = d.ring ∧
    (Dev.popOrder d).timing = d.timing ∧
    (Dev.popOrder d).live = d.live ∧
    (Dev.popOrder d).replay = d.replay ∧
    (Dev.popOrder d).downlink = d.downlink ∧
    (Dev.popOrder d).remote = d.remote ∧
    (Dev.popOrder d).watch = d.watch ∧
    (Dev.popOrder d).feed = d.feed ∧
    (Dev.popOrder d).freeCount = d.freeCount := by
  simp [Dev.popOrder]

/-- What `setGate` leaves alone. -/
@[simp] theorem Dev.setGate_frame (g : Gate) (d : Dev) :
    (Dev.setGate g d).resetAsserted = d.resetAsserted ∧
    (Dev.setGate g d).mem = d.mem ∧
    (Dev.setGate g d).plan = d.plan ∧
    (Dev.setGate g d).report = d.report ∧
    (Dev.setGate g d).counters = d.counters ∧
    (Dev.setGate g d).tracker = d.tracker ∧
    (Dev.setGate g d).timing = d.timing ∧
    (Dev.setGate g d).live = d.live ∧
    (Dev.setGate g d).replay = d.replay ∧
    (Dev.setGate g d).downlink = d.downlink ∧
    (Dev.setGate g d).uplink = d.uplink ∧
    (Dev.setGate g d).remote = d.remote ∧
    (Dev.setGate g d).watch = d.watch ∧
    (Dev.setGate g d).feed = d.feed ∧
    (Dev.setGate g d).freeCount = d.freeCount := by
  simp [Dev.setGate]

/-- What `queueReplay` leaves alone. -/
@[simp] theorem Dev.queueReplay_frame (q : ReplayReq) (d : Dev) :
    ((Dev.queueReplay q d).1).resetAsserted = d.resetAsserted ∧
    ((Dev.queueReplay q d).1).mem = d.mem ∧
    ((Dev.queueReplay q d).1).plan = d.plan ∧
    ((Dev.queueReplay q d).1).report = d.report ∧
    ((Dev.queueReplay q d).1).counters = d.counters ∧
    ((Dev.queueReplay q d).1).tracker = d.tracker ∧
    ((Dev.queueReplay q d).1).timing = d.timing ∧
    ((Dev.queueReplay q d).1).live = d.live ∧
    ((Dev.queueReplay q d).1).uplink = d.uplink ∧
    ((Dev.queueReplay q d).1).remote = d.remote ∧
    ((Dev.queueReplay q d).1).watch = d.watch ∧
    ((Dev.queueReplay q d).1).feed = d.feed ∧
    ((Dev.queueReplay q d).1).freeCount = d.freeCount := by
  unfold Dev.queueReplay
  dsimp only
  (repeat' split) <;> simp

/-- What `present` leaves alone. -/
@[simp] theorem Dev.present_frame (kind : Byte) (tag : Tag) (order : MemOrder) (use : RemoteUse) (op : BusOp) (d : Dev) :
    (Dev.present kind tag order use op d).resetAsserted = d.resetAsserted ∧
    (Dev.present kind tag order use op d).mem = d.mem ∧
    (Dev.present kind tag order use op d).plan = d.plan ∧
    (Dev.present kind tag order use op d).report = d.report ∧
    (Dev.present kind tag order use op d).counters = d.counters ∧
    (Dev.present kind tag order use op d).tracker = d.tracker ∧
    (Dev.present kind tag order use op d).ring = d.ring ∧
    (Dev.present kind tag order use op d).timing = d.timing ∧
    (Dev.present kind tag order use op d).live = d.live ∧
    (Dev.present kind tag order use op d).replay = d.replay ∧
    (Dev.present kind tag order use op d).downlink = d.downlink ∧
    (Dev.present kind tag order use op d).watch = d.watch ∧
    (Dev.present kind tag order use op d).feed = d.feed ∧
    (Dev.present kind tag order use op d).freeCount = d.freeCount := by
  simp [Dev.present]

/-- What `memOrder` leaves alone. -/
@[simp] theorem Dev.memOrder_frame (kind : Byte) (tag : Tag) (fieldsOk : Bool) (a n : Nat) (order : MemOrder) (use : RemoteUse) (op : BusOp)
    (d : Dev) :
    (Dev.memOrder kind tag fieldsOk a n order use op d).resetAsserted = d.resetAsserted ∧
    (Dev.memOrder kind tag fieldsOk a n order use op d).mem = d.mem ∧
    (Dev.memOrder kind tag fieldsOk a n order use op d).plan = d.plan ∧
    (Dev.memOrder kind tag fieldsOk a n order use op d).report = d.report ∧
    (Dev.memOrder kind tag fieldsOk a n order use op d).counters = d.counters ∧
    (Dev.memOrder kind tag fieldsOk a n order use op d).tracker = d.tracker ∧
    (Dev.memOrder kind tag fieldsOk a n order use op d).ring = d.ring ∧
    (Dev.memOrder kind tag fieldsOk a n order use op d).timing = d.timing ∧
    (Dev.memOrder kind tag fieldsOk a n order use op d).live = d.live ∧
    (Dev.memOrder kind tag fieldsOk a n order use op d).replay = d.replay ∧
    (Dev.memOrder kind tag fieldsOk a n order use op d).watch = d.watch ∧
    (Dev.memOrder kind tag fieldsOk a n order use op d).feed = d.feed ∧
    (Dev.memOrder kind tag fieldsOk a n order use op d).freeCount = d.freeCount := by
  unfold Dev.memOrder
  (repeat' split) <;> simp

/-- What `setPage` leaves alone. -/
@[simp] theorem Dev.setPage_frame (n : BitVec 10) (d : Dev) :
    (Dev.setPage n d).resetAsserted = d.resetAsserted ∧
    (Dev.setPage n d).mem = d.mem ∧
    (Dev.setPage n d).plan = d.plan ∧
    (Dev.setPage n d).report = d.report ∧
    (Dev.setPage n d).counters = d.counters ∧
    (Dev.setPage n d).tracker = d.tracker ∧
    (Dev.setPage n d).ring = d.ring ∧
    (Dev.setPage n d).timing = d.timing ∧
    (Dev.setPage n d).live = d.live ∧
    (Dev.setPage n d).replay = d.replay ∧
    (Dev.setPage n d).downlink = d.downlink ∧
    (Dev.setPage n d).uplink = d.uplink ∧
    (Dev.setPage n d).watch = d.watch ∧
    (Dev.setPage n d).feed = d.feed ∧
    (Dev.setPage n d).freeCount = d.freeCount := by
  simp [Dev.setPage]

/-- What `setPointer` leaves alone. -/
@[simp] theorem Dev.setPointer_frame (a : Addr) (d : Dev) :
    (Dev.setPointer a d).resetAsserted = d.resetAsserted ∧
    (Dev.setPointer a d).mem = d.mem ∧
    (Dev.setPointer a d).plan = d.plan ∧
    (Dev.setPointer a d).report = d.report ∧
    (Dev.setPointer a d).counters = d.counters ∧
    (Dev.setPointer a d).tracker = d.tracker ∧
    (Dev.setPointer a d).ring = d.ring ∧
    (Dev.setPointer a d).timing = d.timing ∧
    (Dev.setPointer a d).live = d.live ∧
    (Dev.setPointer a d).replay = d.replay ∧
    (Dev.setPointer a d).downlink = d.downlink ∧
    (Dev.setPointer a d).uplink = d.uplink ∧
    (Dev.setPointer a d).watch = d.watch ∧
    (Dev.setPointer a d).feed = d.feed ∧
    (Dev.setPointer a d).freeCount = d.freeCount := by
  simp [Dev.setPointer]

/-- What `advancePointer` leaves alone. -/
@[simp] theorem Dev.advancePointer_frame (n : Nat) (d : Dev) :
    (Dev.advancePointer n d).resetAsserted = d.resetAsserted ∧
    (Dev.advancePointer n d).mem = d.mem ∧
    (Dev.advancePointer n d).plan = d.plan ∧
    (Dev.advancePointer n d).report = d.report ∧
    (Dev.advancePointer n d).counters = d.counters ∧
    (Dev.advancePointer n d).tracker = d.tracker ∧
    (Dev.advancePointer n d).ring = d.ring ∧
    (Dev.advancePointer n d).timing = d.timing ∧
    (Dev.advancePointer n d).live = d.live ∧
    (Dev.advancePointer n d).replay = d.replay ∧
    (Dev.advancePointer n d).downlink = d.downlink ∧
    (Dev.advancePointer n d).uplink = d.uplink ∧
    (Dev.advancePointer n d).watch = d.watch ∧
    (Dev.advancePointer n d).feed = d.feed ∧
    (Dev.advancePointer n d).freeCount = d.freeCount := by
  simp [Dev.advancePointer]

/-- What `dropRecord` leaves alone. -/
@[simp] theorem Dev.dropRecord_frame (tag : Nat) (d : Dev) :
    (Dev.dropRecord tag d).resetAsserted = d.resetAsserted ∧
    (Dev.dropRecord tag d).plan = d.plan ∧
    (Dev.dropRecord tag d).report = d.report ∧
    (Dev.dropRecord tag d).counters = d.counters ∧
    (Dev.dropRecord tag d).tracker = d.tracker ∧
    (Dev.dropRecord tag d).ring = d.ring ∧
    (Dev.dropRecord tag d).timing = d.timing ∧
    (Dev.dropRecord tag d).live = d.live ∧
    (Dev.dropRecord tag d).replay = d.replay ∧
    (Dev.dropRecord tag d).downlink = d.downlink ∧
    (Dev.dropRecord tag d).uplink = d.uplink ∧
    (Dev.dropRecord tag d).remote = d.remote ∧
    (Dev.dropRecord tag d).watch = d.watch ∧
    (Dev.dropRecord tag d).feed = d.feed ∧
    (Dev.dropRecord tag d).freeCount = d.freeCount := by
  simp [Dev.dropRecord]

/-- What `countError` leaves alone. -/
@[simp] theorem Dev.countError_frame (r : InFlight) (reply : MemReply) (d : Dev) :
    (Dev.countError r reply d).resetAsserted = d.resetAsserted ∧
    (Dev.countError r reply d).mem = d.mem ∧
    (Dev.countError r reply d).plan = d.plan ∧
    (Dev.countError r reply d).report = d.report ∧
    (Dev.countError r reply d).tracker = d.tracker ∧
    (Dev.countError r reply d).timing = d.timing ∧
    (Dev.countError r reply d).live = d.live ∧
    (Dev.countError r reply d).replay = d.replay ∧
    (Dev.countError r reply d).downlink = d.downlink ∧
    (Dev.countError r reply d).uplink = d.uplink ∧
    (Dev.countError r reply d).remote = d.remote ∧
    (Dev.countError r reply d).watch = d.watch ∧
    (Dev.countError r reply d).feed = d.feed ∧
    (Dev.countError r reply d).freeCount = d.freeCount := by
  have h : ∀ (l : List HandleEntry) (d : Dev), (l.foldl (fun d h => d.errorDamage h) d).resetAsserted = d.resetAsserted ∧
      (l.foldl (fun d h => d.errorDamage h) d).mem = d.mem ∧
      (l.foldl (fun d h => d.errorDamage h) d).plan = d.plan ∧
      (l.foldl (fun d h => d.errorDamage h) d).report = d.report ∧
      (l.foldl (fun d h => d.errorDamage h) d).tracker = d.tracker ∧
      (l.foldl (fun d h => d.errorDamage h) d).timing = d.timing ∧
      (l.foldl (fun d h => d.errorDamage h) d).live = d.live ∧
      (l.foldl (fun d h => d.errorDamage h) d).replay = d.replay ∧
      (l.foldl (fun d h => d.errorDamage h) d).downlink = d.downlink ∧
      (l.foldl (fun d h => d.errorDamage h) d).uplink = d.uplink ∧
      (l.foldl (fun d h => d.errorDamage h) d).remote = d.remote ∧
      (l.foldl (fun d h => d.errorDamage h) d).watch = d.watch ∧
      (l.foldl (fun d h => d.errorDamage h) d).feed = d.feed ∧
      (l.foldl (fun d h => d.errorDamage h) d).freeCount = d.freeCount := by
    intro l
    induction l with
    | nil => simp
    | cons q l ih => intro d; simp [ih]
  unfold Dev.countError
  split <;> simp [h]

/-- What `toHead` leaves alone. -/
@[simp] theorem Dev.toHead_frame (ident : Nat) (reply : MemReply) (d : Dev) :
    (Dev.toHead ident reply d).resetAsserted = d.resetAsserted ∧
    (Dev.toHead ident reply d).plan = d.plan ∧
    (Dev.toHead ident reply d).report = d.report ∧
    (Dev.toHead ident reply d).counters = d.counters ∧
    (Dev.toHead ident reply d).tracker = d.tracker ∧
    (Dev.toHead ident reply d).ring = d.ring ∧
    (Dev.toHead ident reply d).timing = d.timing ∧
    (Dev.toHead ident reply d).live = d.live ∧
    (Dev.toHead ident reply d).replay = d.replay ∧
    (Dev.toHead ident reply d).downlink = d.downlink ∧
    (Dev.toHead ident reply d).uplink = d.uplink ∧
    (Dev.toHead ident reply d).remote = d.remote ∧
    (Dev.toHead ident reply d).watch = d.watch ∧
    (Dev.toHead ident reply d).feed = d.feed ∧
    (Dev.toHead ident reply d).freeCount = d.freeCount := by
  simp [Dev.toHead]

/-- What `faultOn` leaves alone. -/
@[simp] theorem Dev.faultOn_frame (reply : MemReply) (d : Dev) :
    (Dev.faultOn reply d).resetAsserted = d.resetAsserted ∧
    (Dev.faultOn reply d).mem = d.mem ∧
    (Dev.faultOn reply d).plan = d.plan ∧
    (Dev.faultOn reply d).counters = d.counters ∧
    (Dev.faultOn reply d).tracker = d.tracker ∧
    (Dev.faultOn reply d).ring = d.ring ∧
    (Dev.faultOn reply d).timing = d.timing ∧
    (Dev.faultOn reply d).live = d.live ∧
    (Dev.faultOn reply d).replay = d.replay ∧
    (Dev.faultOn reply d).downlink = d.downlink ∧
    (Dev.faultOn reply d).uplink = d.uplink ∧
    (Dev.faultOn reply d).remote = d.remote ∧
    (Dev.faultOn reply d).watch = d.watch ∧
    (Dev.faultOn reply d).feed = d.feed ∧
    (Dev.faultOn reply d).freeCount = d.freeCount := by
  unfold Dev.faultOn
  (repeat' split) <;> simp

/-- What `reportReply` leaves alone. -/
@[simp] theorem Dev.reportReply_frame (reply : MemReply) (d : Dev) :
    (Dev.reportReply reply d).resetAsserted = d.resetAsserted ∧
    (Dev.reportReply reply d).mem = d.mem ∧
    (Dev.reportReply reply d).plan = d.plan ∧
    (Dev.reportReply reply d).counters = d.counters ∧
    (Dev.reportReply reply d).tracker = d.tracker ∧
    (Dev.reportReply reply d).ring = d.ring ∧
    (Dev.reportReply reply d).timing = d.timing ∧
    (Dev.reportReply reply d).live = d.live ∧
    (Dev.reportReply reply d).replay = d.replay ∧
    (Dev.reportReply reply d).downlink = d.downlink ∧
    (Dev.reportReply reply d).uplink = d.uplink ∧
    (Dev.reportReply reply d).remote = d.remote ∧
    (Dev.reportReply reply d).watch = d.watch ∧
    (Dev.reportReply reply d).feed = d.feed ∧
    (Dev.reportReply reply d).freeCount = d.freeCount := by
  simp [Dev.reportReply]

/-- What `feedReply` leaves alone. -/
@[simp] theorem Dev.feedReply_frame (reply : MemReply) (d : Dev) :
    (Dev.feedReply reply d).resetAsserted = d.resetAsserted ∧
    (Dev.feedReply reply d).mem = d.mem ∧
    (Dev.feedReply reply d).plan = d.plan ∧
    (Dev.feedReply reply d).counters = d.counters ∧
    (Dev.feedReply reply d).tracker = d.tracker ∧
    (Dev.feedReply reply d).ring = d.ring ∧
    (Dev.feedReply reply d).timing = d.timing ∧
    (Dev.feedReply reply d).live = d.live ∧
    (Dev.feedReply reply d).replay = d.replay ∧
    (Dev.feedReply reply d).downlink = d.downlink ∧
    (Dev.feedReply reply d).uplink = d.uplink ∧
    (Dev.feedReply reply d).remote = d.remote ∧
    (Dev.feedReply reply d).watch = d.watch ∧
    (Dev.feedReply reply d).freeCount = d.freeCount := by
  unfold Dev.feedReply
  (repeat' split) <;> simp

/-- What `endOrder` leaves alone. -/
@[simp] theorem Dev.endOrder_frame (kind : Byte) (tag : Tag) (order : MemOrder) (reply : MemReply) (d : Dev) :
    (Dev.endOrder kind tag order reply d).resetAsserted = d.resetAsserted ∧
    (Dev.endOrder kind tag order reply d).mem = d.mem ∧
    (Dev.endOrder kind tag order reply d).plan = d.plan ∧
    (Dev.endOrder kind tag order reply d).report = d.report ∧
    (Dev.endOrder kind tag order reply d).counters = d.counters ∧
    (Dev.endOrder kind tag order reply d).tracker = d.tracker ∧
    (Dev.endOrder kind tag order reply d).ring = d.ring ∧
    (Dev.endOrder kind tag order reply d).timing = d.timing ∧
    (Dev.endOrder kind tag order reply d).live = d.live ∧
    (Dev.endOrder kind tag order reply d).replay = d.replay ∧
    (Dev.endOrder kind tag order reply d).watch = d.watch ∧
    (Dev.endOrder kind tag order reply d).feed = d.feed ∧
    (Dev.endOrder kind tag order reply d).freeCount = d.freeCount := by
  unfold Dev.endOrder
  (repeat' split) <;> simp

/-- What `maskReadReply` leaves alone. -/
@[simp] theorem Dev.maskReadReply_frame (kind : Byte) (tag : Tag) (a : Nat) (value mask : List Byte) (reply : MemReply) (d : Dev) :
    (Dev.maskReadReply kind tag a value mask reply d).resetAsserted = d.resetAsserted ∧
    (Dev.maskReadReply kind tag a value mask reply d).plan = d.plan ∧
    (Dev.maskReadReply kind tag a value mask reply d).report = d.report ∧
    (Dev.maskReadReply kind tag a value mask reply d).counters = d.counters ∧
    (Dev.maskReadReply kind tag a value mask reply d).tracker = d.tracker ∧
    (Dev.maskReadReply kind tag a value mask reply d).ring = d.ring ∧
    (Dev.maskReadReply kind tag a value mask reply d).timing = d.timing ∧
    (Dev.maskReadReply kind tag a value mask reply d).live = d.live ∧
    (Dev.maskReadReply kind tag a value mask reply d).replay = d.replay ∧
    (Dev.maskReadReply kind tag a value mask reply d).watch = d.watch ∧
    (Dev.maskReadReply kind tag a value mask reply d).feed = d.feed ∧
    (Dev.maskReadReply kind tag a value mask reply d).freeCount = d.freeCount := by
  unfold Dev.maskReadReply
  (repeat' split) <;> simp

/-- What `seedReply` leaves alone. -/
@[simp] theorem Dev.seedReply_frame (kind : Byte) (tag : Tag) (order : MemOrder) (reply : MemReply) (d : Dev) :
    (Dev.seedReply kind tag order reply d).resetAsserted = d.resetAsserted ∧
    (Dev.seedReply kind tag order reply d).mem = d.mem ∧
    (Dev.seedReply kind tag order reply d).plan = d.plan ∧
    (Dev.seedReply kind tag order reply d).report = d.report ∧
    (Dev.seedReply kind tag order reply d).tracker = d.tracker ∧
    (Dev.seedReply kind tag order reply d).ring = d.ring ∧
    (Dev.seedReply kind tag order reply d).timing = d.timing ∧
    (Dev.seedReply kind tag order reply d).live = d.live ∧
    (Dev.seedReply kind tag order reply d).replay = d.replay ∧
    (Dev.seedReply kind tag order reply d).feed = d.feed ∧
    (Dev.seedReply kind tag order reply d).freeCount = d.freeCount := by
  unfold Dev.seedReply
  (repeat' split) <;> simp

/-- What `remoteReply` leaves alone. -/
@[simp] theorem Dev.remoteReply_frame (use : RemoteUse) (reply : MemReply) (d : Dev) :
    (Dev.remoteReply use reply d).resetAsserted = d.resetAsserted ∧
    (Dev.remoteReply use reply d).plan = d.plan ∧
    (Dev.remoteReply use reply d).tracker = d.tracker ∧
    (Dev.remoteReply use reply d).ring = d.ring ∧
    (Dev.remoteReply use reply d).timing = d.timing ∧
    (Dev.remoteReply use reply d).live = d.live ∧
    (Dev.remoteReply use reply d).replay = d.replay ∧
    (Dev.remoteReply use reply d).feed = d.feed ∧
    (Dev.remoteReply use reply d).freeCount = d.freeCount := by
  unfold Dev.remoteReply
  (repeat' split) <;> simp

/-- What `toOwner` leaves alone. -/
@[simp] theorem Dev.toOwner_frame (owner : Owner) (reply : MemReply) (d : Dev) :
    (Dev.toOwner owner reply d).resetAsserted = d.resetAsserted ∧
    (Dev.toOwner owner reply d).plan = d.plan ∧
    (Dev.toOwner owner reply d).tracker = d.tracker ∧
    (Dev.toOwner owner reply d).ring = d.ring ∧
    (Dev.toOwner owner reply d).timing = d.timing ∧
    (Dev.toOwner owner reply d).freeCount = d.freeCount := by
  unfold Dev.toOwner
  (repeat' split) <;> simp

/-- What `deliver` leaves alone. -/
@[simp] theorem Dev.deliver_frame (r : InFlight) (reply : MemReply) (d : Dev) :
    (Dev.deliver r reply d).resetAsserted = d.resetAsserted ∧
    (Dev.deliver r reply d).plan = d.plan ∧
    (Dev.deliver r reply d).tracker = d.tracker ∧
    (Dev.deliver r reply d).timing = d.timing ∧
    (Dev.deliver r reply d).freeCount = d.freeCount := by
  simp [Dev.deliver]

/-- What `updUplink` leaves alone. -/
@[simp] theorem Dev.updUplink_frame (f : Uplink → Uplink) (d : Dev) :
    (Dev.updUplink f d).resetAsserted = d.resetAsserted ∧
    (Dev.updUplink f d).mem = d.mem ∧
    (Dev.updUplink f d).plan = d.plan ∧
    (Dev.updUplink f d).report = d.report ∧
    (Dev.updUplink f d).counters = d.counters ∧
    (Dev.updUplink f d).tracker = d.tracker ∧
    (Dev.updUplink f d).ring = d.ring ∧
    (Dev.updUplink f d).timing = d.timing ∧
    (Dev.updUplink f d).live = d.live ∧
    (Dev.updUplink f d).replay = d.replay ∧
    (Dev.updUplink f d).downlink = d.downlink ∧
    (Dev.updUplink f d).remote = d.remote ∧
    (Dev.updUplink f d).watch = d.watch ∧
    (Dev.updUplink f d).feed = d.feed ∧
    (Dev.updUplink f d).freeCount = d.freeCount := by
  simp [Dev.updUplink]

/-- What `loseLock` leaves alone. -/
@[simp] theorem Dev.loseLock_frame (d : Dev) :
    (Dev.loseLock d).resetAsserted = d.resetAsserted ∧
    (Dev.loseLock d).mem = d.mem ∧
    (Dev.loseLock d).plan = d.plan ∧
    (Dev.loseLock d).counters = d.counters ∧
    (Dev.loseLock d).tracker = d.tracker ∧
    (Dev.loseLock d).ring = d.ring ∧
    (Dev.loseLock d).timing = d.timing ∧
    (Dev.loseLock d).live = d.live ∧
    (Dev.loseLock d).downlink = d.downlink ∧
    (Dev.loseLock d).remote = d.remote ∧
    (Dev.loseLock d).watch = d.watch ∧
    (Dev.loseLock d).feed = d.feed ∧
    (Dev.loseLock d).freeCount = d.freeCount := by
  simp [Dev.loseLock]

/-- What `lockBad` leaves alone. -/
@[simp] theorem Dev.lockBad_frame (d : Dev) :
    (Dev.lockBad d).resetAsserted = d.resetAsserted ∧
    (Dev.lockBad d).mem = d.mem ∧
    (Dev.lockBad d).plan = d.plan ∧
    (Dev.lockBad d).counters = d.counters ∧
    (Dev.lockBad d).tracker = d.tracker ∧
    (Dev.lockBad d).ring = d.ring ∧
    (Dev.lockBad d).timing = d.timing ∧
    (Dev.lockBad d).live = d.live ∧
    (Dev.lockBad d).downlink = d.downlink ∧
    (Dev.lockBad d).remote = d.remote ∧
    (Dev.lockBad d).watch = d.watch ∧
    (Dev.lockBad d).feed = d.feed ∧
    (Dev.lockBad d).freeCount = d.freeCount := by
  unfold Dev.lockBad
  (repeat' split) <;> simp

/-- What `badFrame` leaves alone. -/
@[simp] theorem Dev.badFrame_frame (d : Dev) :
    (Dev.badFrame d).resetAsserted = d.resetAsserted ∧
    (Dev.badFrame d).mem = d.mem ∧
    (Dev.badFrame d).plan = d.plan ∧
    (Dev.badFrame d).tracker = d.tracker ∧
    (Dev.badFrame d).ring = d.ring ∧
    (Dev.badFrame d).timing = d.timing ∧
    (Dev.badFrame d).live = d.live ∧
    (Dev.badFrame d).downlink = d.downlink ∧
    (Dev.badFrame d).remote = d.remote ∧
    (Dev.badFrame d).watch = d.watch ∧
    (Dev.badFrame d).feed = d.feed ∧
    (Dev.badFrame d).freeCount = d.freeCount := by
  simp [Dev.badFrame]

/-- What `queueOrder` leaves alone. -/
@[simp] theorem Dev.queueOrder_frame (o : RawOrder) (d : Dev) :
    (Dev.queueOrder o d).resetAsserted = d.resetAsserted ∧
    (Dev.queueOrder o d).mem = d.mem ∧
    (Dev.queueOrder o d).plan = d.plan ∧
    (Dev.queueOrder o d).report = d.report ∧
    (Dev.queueOrder o d).tracker = d.tracker ∧
    (Dev.queueOrder o d).ring = d.ring ∧
    (Dev.queueOrder o d).timing = d.timing ∧
    (Dev.queueOrder o d).live = d.live ∧
    (Dev.queueOrder o d).replay = d.replay ∧
    (Dev.queueOrder o d).downlink = d.downlink ∧
    (Dev.queueOrder o d).remote = d.remote ∧
    (Dev.queueOrder o d).watch = d.watch ∧
    (Dev.queueOrder o d).feed = d.feed ∧
    (Dev.queueOrder o d).freeCount = d.freeCount := by
  unfold Dev.queueOrder
  (repeat' split) <;> simp

/-- What `handleOrder` leaves alone. -/
@[simp] theorem Dev.handleOrder_frame (first : Bool) (arrival : HeadTime) (o : RawOrder) (d : Dev) :
    (Dev.handleOrder first arrival o d).resetAsserted = d.resetAsserted ∧
    (Dev.handleOrder first arrival o d).mem = d.mem ∧
    (Dev.handleOrder first arrival o d).plan = d.plan ∧
    (Dev.handleOrder first arrival o d).tracker = d.tracker ∧
    (Dev.handleOrder first arrival o d).ring = d.ring ∧
    (Dev.handleOrder first arrival o d).live = d.live ∧
    (Dev.handleOrder first arrival o d).downlink = d.downlink ∧
    (Dev.handleOrder first arrival o d).remote = d.remote ∧
    (Dev.handleOrder first arrival o d).watch = d.watch ∧
    (Dev.handleOrder first arrival o d).freeCount = d.freeCount := by
  unfold Dev.handleOrder
  (repeat' split) <;> simp

/-- What `parse` leaves alone. -/
@[simp] theorem Dev.parse_frame (arrival : HeadTime) (n : Nat) (first : Bool) (bytes : List Byte) (d : Dev) :
    (d.parse arrival n first bytes).resetAsserted = d.resetAsserted ∧
    (d.parse arrival n first bytes).mem = d.mem ∧
    (d.parse arrival n first bytes).plan = d.plan ∧
    (d.parse arrival n first bytes).tracker = d.tracker ∧
    (d.parse arrival n first bytes).ring = d.ring ∧
    (d.parse arrival n first bytes).live = d.live ∧
    (d.parse arrival n first bytes).downlink = d.downlink ∧
    (d.parse arrival n first bytes).remote = d.remote ∧
    (d.parse arrival n first bytes).watch = d.watch ∧
    (d.parse arrival n first bytes).freeCount = d.freeCount := by
  induction n generalizing first bytes d with
  | zero => simp [Dev.parse]
  | succ n ih =>
    match bytes with
    | [] => simp [Dev.parse]
    | [k] =>
      simp only [Dev.parse]
      split <;> simp
    | k :: len :: rest =>
      simp only [Dev.parse]
      split
      · simp
      · split
        · simp
        · simp only [ih]
          split <;> simp

/-- What `goodFrame` leaves alone. -/
@[simp] theorem Dev.goodFrame_frame (arrival : HeadTime) (bytes : List Byte) (d : Dev) :
    (Dev.goodFrame arrival bytes d).resetAsserted = d.resetAsserted ∧
    (Dev.goodFrame arrival bytes d).mem = d.mem ∧
    (Dev.goodFrame arrival bytes d).plan = d.plan ∧
    (Dev.goodFrame arrival bytes d).tracker = d.tracker ∧
    (Dev.goodFrame arrival bytes d).ring = d.ring ∧
    (Dev.goodFrame arrival bytes d).live = d.live ∧
    (Dev.goodFrame arrival bytes d).downlink = d.downlink ∧
    (Dev.goodFrame arrival bytes d).remote = d.remote ∧
    (Dev.goodFrame arrival bytes d).watch = d.watch ∧
    (Dev.goodFrame arrival bytes d).freeCount = d.freeCount := by
  unfold Dev.goodFrame
  dsimp only
  (repeat' split) <;> simp

/-- What `frameEvent` leaves alone. -/
@[simp] theorem Dev.frameEvent_frame (bytes : List Byte) (d : Dev) :
    (Dev.frameEvent bytes d).resetAsserted = d.resetAsserted ∧
    (Dev.frameEvent bytes d).mem = d.mem ∧
    (Dev.frameEvent bytes d).plan = d.plan ∧
    (Dev.frameEvent bytes d).tracker = d.tracker ∧
    (Dev.frameEvent bytes d).ring = d.ring ∧
    (Dev.frameEvent bytes d).live = d.live ∧
    (Dev.frameEvent bytes d).downlink = d.downlink ∧
    (Dev.frameEvent bytes d).remote = d.remote ∧
    (Dev.frameEvent bytes d).watch = d.watch ∧
    (Dev.frameEvent bytes d).freeCount = d.freeCount := by
  unfold Dev.frameEvent
  dsimp only
  (repeat' split) <;> simp

/-- What `startFrame` leaves alone. -/
@[simp] theorem Dev.startFrame_frame (d : Dev) :
    (Dev.startFrame d).resetAsserted = d.resetAsserted ∧
    (Dev.startFrame d).mem = d.mem ∧
    (Dev.startFrame d).plan = d.plan ∧
    (Dev.startFrame d).tracker = d.tracker ∧
    (Dev.startFrame d).ring = d.ring ∧
    (Dev.startFrame d).timing = d.timing ∧
    (Dev.startFrame d).live = d.live ∧
    (Dev.startFrame d).downlink = d.downlink ∧
    (Dev.startFrame d).remote = d.remote ∧
    (Dev.startFrame d).watch = d.watch ∧
    (Dev.startFrame d).feed = d.feed ∧
    (Dev.startFrame d).freeCount = d.freeCount := by
  unfold Dev.startFrame
  dsimp only
  (repeat' split) <;> simp

/-- What `missFrame` leaves alone. -/
@[simp] theorem Dev.missFrame_frame (due : HeadTime) (d : Dev) :
    (Dev.missFrame due d).resetAsserted = d.resetAsserted ∧
    (Dev.missFrame due d).mem = d.mem ∧
    (Dev.missFrame due d).plan = d.plan ∧
    (Dev.missFrame due d).tracker = d.tracker ∧
    (Dev.missFrame due d).ring = d.ring ∧
    (Dev.missFrame due d).timing = d.timing ∧
    (Dev.missFrame due d).live = d.live ∧
    (Dev.missFrame due d).downlink = d.downlink ∧
    (Dev.missFrame due d).remote = d.remote ∧
    (Dev.missFrame due d).watch = d.watch ∧
    (Dev.missFrame due d).feed = d.feed ∧
    (Dev.missFrame due d).freeCount = d.freeCount := by
  simp [Dev.missFrame]

/-- What `sendCell` leaves alone. -/
@[simp] theorem Dev.sendCell_frame (kind : CellKind) (bytes : List Byte) (d : Dev) :
    (Dev.sendCell kind bytes d).resetAsserted = d.resetAsserted ∧
    (Dev.sendCell kind bytes d).mem = d.mem ∧
    (Dev.sendCell kind bytes d).plan = d.plan ∧
    (Dev.sendCell kind bytes d).report = d.report ∧
    (Dev.sendCell kind bytes d).counters = d.counters ∧
    (Dev.sendCell kind bytes d).tracker = d.tracker ∧
    (Dev.sendCell kind bytes d).ring = d.ring ∧
    (Dev.sendCell kind bytes d).timing = d.timing ∧
    (Dev.sendCell kind bytes d).live = d.live ∧
    (Dev.sendCell kind bytes d).replay = d.replay ∧
    (Dev.sendCell kind bytes d).uplink = d.uplink ∧
    (Dev.sendCell kind bytes d).remote = d.remote ∧
    (Dev.sendCell kind bytes d).watch = d.watch ∧
    (Dev.sendCell kind bytes d).feed = d.feed ∧
    (Dev.sendCell kind bytes d).freeCount = d.freeCount := by
  simp [Dev.sendCell]

/-- What `afterControl` leaves alone. -/
@[simp] theorem Dev.afterControl_frame (d : Dev) :
    (Dev.afterControl d).resetAsserted = d.resetAsserted ∧
    (Dev.afterControl d).mem = d.mem ∧
    (Dev.afterControl d).plan = d.plan ∧
    (Dev.afterControl d).report = d.report ∧
    (Dev.afterControl d).counters = d.counters ∧
    (Dev.afterControl d).tracker = d.tracker ∧
    (Dev.afterControl d).timing = d.timing ∧
    (Dev.afterControl d).live = d.live ∧
    (Dev.afterControl d).remote = d.remote ∧
    (Dev.afterControl d).watch = d.watch ∧
    (Dev.afterControl d).feed = d.feed := by
  unfold Dev.afterControl
  dsimp only
  (repeat' split) <;> simp

/-- What `sendControl` leaves alone. -/
@[simp] theorem Dev.sendControl_frame (d : Dev) :
    (Dev.sendControl d).resetAsserted = d.resetAsserted ∧
    (Dev.sendControl d).mem = d.mem ∧
    (Dev.sendControl d).plan = d.plan ∧
    (Dev.sendControl d).report = d.report ∧
    (Dev.sendControl d).counters = d.counters ∧
    (Dev.sendControl d).tracker = d.tracker ∧
    (Dev.sendControl d).timing = d.timing ∧
    (Dev.sendControl d).live = d.live ∧
    (Dev.sendControl d).remote = d.remote ∧
    (Dev.sendControl d).watch = d.watch ∧
    (Dev.sendControl d).feed = d.feed := by
  simp [Dev.sendControl]

/-- What `lineSent` leaves alone. -/
@[simp] theorem Dev.lineSent_frame (r : ReaderId) (last : Bool) (d : Dev) :
    (Dev.lineSent r last d).resetAsserted = d.resetAsserted ∧
    (Dev.lineSent r last d).mem = d.mem ∧
    (Dev.lineSent r last d).plan = d.plan ∧
    (Dev.lineSent r last d).report = d.report ∧
    (Dev.lineSent r last d).counters = d.counters ∧
    (Dev.lineSent r last d).tracker = d.tracker ∧
    (Dev.lineSent r last d).timing = d.timing ∧
    (Dev.lineSent r last d).uplink = d.uplink ∧
    (Dev.lineSent r last d).remote = d.remote ∧
    (Dev.lineSent r last d).watch = d.watch ∧
    (Dev.lineSent r last d).feed = d.feed ∧
    (Dev.lineSent r last d).freeCount = d.freeCount := by
  unfold Dev.lineSent
  (repeat' split) <;> simp

/-- What `sendLine` leaves alone. -/
@[simp] theorem Dev.sendLine_frame (r : ReaderId) (kind : CellKind) (d : Dev) :
    (Dev.sendLine r kind d).resetAsserted = d.resetAsserted ∧
    (Dev.sendLine r kind d).mem = d.mem ∧
    (Dev.sendLine r kind d).plan = d.plan ∧
    (Dev.sendLine r kind d).report = d.report ∧
    (Dev.sendLine r kind d).counters = d.counters ∧
    (Dev.sendLine r kind d).tracker = d.tracker ∧
    (Dev.sendLine r kind d).timing = d.timing ∧
    (Dev.sendLine r kind d).uplink = d.uplink ∧
    (Dev.sendLine r kind d).remote = d.remote ∧
    (Dev.sendLine r kind d).watch = d.watch ∧
    (Dev.sendLine r kind d).feed = d.feed ∧
    (Dev.sendLine r kind d).freeCount = d.freeCount := by
  unfold Dev.sendLine
  dsimp only
  (repeat' split) <;> simp

/-- What `boundary` leaves alone. -/
@[simp] theorem Dev.boundary_frame (d : Dev) :
    (Dev.boundary d).resetAsserted = d.resetAsserted ∧
    (Dev.boundary d).mem = d.mem ∧
    (Dev.boundary d).plan = d.plan ∧
    (Dev.boundary d).report = d.report ∧
    (Dev.boundary d).counters = d.counters ∧
    (Dev.boundary d).tracker = d.tracker ∧
    (Dev.boundary d).timing = d.timing ∧
    (Dev.boundary d).remote = d.remote ∧
    (Dev.boundary d).watch = d.watch ∧
    (Dev.boundary d).feed = d.feed := by
  unfold Dev.boundary
  (repeat' split) <;> simp

/-- What `tick` leaves alone. -/
@[simp] theorem Dev.tick_frame (d : Dev) :
    (Dev.tick d).resetAsserted = d.resetAsserted ∧
    (Dev.tick d).mem = d.mem ∧
    (Dev.tick d).plan = d.plan ∧
    (Dev.tick d).report = d.report ∧
    (Dev.tick d).counters = d.counters ∧
    (Dev.tick d).tracker = d.tracker ∧
    (Dev.tick d).ring = d.ring ∧
    (Dev.tick d).live = d.live ∧
    (Dev.tick d).replay = d.replay ∧
    (Dev.tick d).downlink = d.downlink ∧
    (Dev.tick d).uplink = d.uplink ∧
    (Dev.tick d).remote = d.remote ∧
    (Dev.tick d).watch = d.watch ∧
    (Dev.tick d).feed = d.feed ∧
    (Dev.tick d).freeCount = d.freeCount := by
  simp [Dev.tick]

/-- What `assertReset` leaves alone. -/
@[simp] theorem Dev.assertReset_frame (d : Dev) :
    (Dev.assertReset d).mem = d.mem ∧
    (Dev.assertReset d).plan = d.plan ∧
    (Dev.assertReset d).report = d.report ∧
    (Dev.assertReset d).counters = d.counters ∧
    (Dev.assertReset d).tracker = d.tracker ∧
    (Dev.assertReset d).live = d.live ∧
    (Dev.assertReset d).replay = d.replay ∧
    (Dev.assertReset d).remote = d.remote ∧
    (Dev.assertReset d).watch = d.watch ∧
    (Dev.assertReset d).feed = d.feed ∧
    (Dev.assertReset d).freeCount = d.freeCount := by
  simp [Dev.assertReset]

/-- What `setParked` leaves alone. -/
@[simp] theorem Dev.setParked_frame (b : Bool) (d : Dev) :
    (Dev.setParked b d).resetAsserted = d.resetAsserted ∧
    (Dev.setParked b d).plan = d.plan ∧
    (Dev.setParked b d).report = d.report ∧
    (Dev.setParked b d).counters = d.counters ∧
    (Dev.setParked b d).tracker = d.tracker ∧
    (Dev.setParked b d).ring = d.ring ∧
    (Dev.setParked b d).timing = d.timing ∧
    (Dev.setParked b d).live = d.live ∧
    (Dev.setParked b d).replay = d.replay ∧
    (Dev.setParked b d).downlink = d.downlink ∧
    (Dev.setParked b d).uplink = d.uplink ∧
    (Dev.setParked b d).remote = d.remote ∧
    (Dev.setParked b d).watch = d.watch ∧
    (Dev.setParked b d).feed = d.feed ∧
    (Dev.setParked b d).freeCount = d.freeCount := by
  simp [Dev.setParked]

/-- What `takeRequest` leaves alone. -/
@[simp] theorem Dev.takeRequest_frame (ident : Nat) (op : BusOp) (d : Dev) :
    (Dev.takeRequest ident op d).resetAsserted = d.resetAsserted ∧
    (Dev.takeRequest ident op d).plan = d.plan ∧
    (Dev.takeRequest ident op d).report = d.report ∧
    (Dev.takeRequest ident op d).counters = d.counters ∧
    (Dev.takeRequest ident op d).tracker = d.tracker ∧
    (Dev.takeRequest ident op d).ring = d.ring ∧
    (Dev.takeRequest ident op d).timing = d.timing ∧
    (Dev.takeRequest ident op d).live = d.live ∧
    (Dev.takeRequest ident op d).replay = d.replay ∧
    (Dev.takeRequest ident op d).downlink = d.downlink ∧
    (Dev.takeRequest ident op d).uplink = d.uplink ∧
    (Dev.takeRequest ident op d).remote = d.remote ∧
    (Dev.takeRequest ident op d).watch = d.watch ∧
    (Dev.takeRequest ident op d).feed = d.feed ∧
    (Dev.takeRequest ident op d).freeCount = d.freeCount := by
  unfold Dev.takeRequest
  (repeat' split) <;> simp

/-- What `anchorDue` leaves alone. -/
@[simp] theorem Dev.anchorDue_frame (d : Dev) :
    (Dev.anchorDue d).resetAsserted = d.resetAsserted ∧
    (Dev.anchorDue d).mem = d.mem ∧
    (Dev.anchorDue d).uplink = d.uplink ∧
    (Dev.anchorDue d).remote = d.remote ∧
    (Dev.anchorDue d).watch = d.watch ∧
    (Dev.anchorDue d).freeCount = d.freeCount := by
  unfold Dev.anchorDue
  (repeat' split) <;> simp

/-- What `captureDue` leaves alone. -/
@[simp] theorem Dev.captureDue_frame (d : Dev) :
    (Dev.captureDue d).resetAsserted = d.resetAsserted ∧
    (Dev.captureDue d).mem = d.mem ∧
    (Dev.captureDue d).plan = d.plan ∧
    (Dev.captureDue d).report = d.report ∧
    (Dev.captureDue d).uplink = d.uplink ∧
    (Dev.captureDue d).remote = d.remote ∧
    (Dev.captureDue d).watch = d.watch ∧
    (Dev.captureDue d).feed = d.feed ∧
    (Dev.captureDue d).freeCount = d.freeCount := by
  unfold Dev.captureDue
  (repeat' split) <;> simp

/-- What `endFrameStart` leaves alone. -/
@[simp] theorem Dev.endFrameStart_frame (d : Dev) :
    (Dev.endFrameStart d).resetAsserted = d.resetAsserted ∧
    (Dev.endFrameStart d).mem = d.mem ∧
    (Dev.endFrameStart d).plan = d.plan ∧
    (Dev.endFrameStart d).report = d.report ∧
    (Dev.endFrameStart d).counters = d.counters ∧
    (Dev.endFrameStart d).tracker = d.tracker ∧
    (Dev.endFrameStart d).timing = d.timing ∧
    (Dev.endFrameStart d).live = d.live ∧
    (Dev.endFrameStart d).replay = d.replay ∧
    (Dev.endFrameStart d).downlink = d.downlink ∧
    (Dev.endFrameStart d).uplink = d.uplink ∧
    (Dev.endFrameStart d).remote = d.remote ∧
    (Dev.endFrameStart d).watch = d.watch ∧
    (Dev.endFrameStart d).feed = d.feed ∧
    (Dev.endFrameStart d).freeCount = d.freeCount := by
  unfold Dev.endFrameStart
  (repeat' split) <;> simp

/-- What `expireIn` leaves alone. -/
@[simp] theorem Dev.expireIn_frame (ctx tile : Nat) (d : Dev) :
    (Dev.expireIn ctx tile d).resetAsserted = d.resetAsserted ∧
    (Dev.expireIn ctx tile d).mem = d.mem ∧
    (Dev.expireIn ctx tile d).plan = d.plan ∧
    (Dev.expireIn ctx tile d).report = d.report ∧
    (Dev.expireIn ctx tile d).timing = d.timing ∧
    (Dev.expireIn ctx tile d).uplink = d.uplink ∧
    (Dev.expireIn ctx tile d).remote = d.remote ∧
    (Dev.expireIn ctx tile d).watch = d.watch ∧
    (Dev.expireIn ctx tile d).feed = d.feed ∧
    (Dev.expireIn ctx tile d).freeCount = d.freeCount := by
  unfold Dev.expireIn
  (repeat' split) <;> simp

/-- What `missingDue` leaves alone. -/
@[simp] theorem Dev.missingDue_frame (d : Dev) :
    (Dev.missingDue d).resetAsserted = d.resetAsserted ∧
    (Dev.missingDue d).mem = d.mem ∧
    (Dev.missingDue d).plan = d.plan ∧
    (Dev.missingDue d).tracker = d.tracker ∧
    (Dev.missingDue d).ring = d.ring ∧
    (Dev.missingDue d).timing = d.timing ∧
    (Dev.missingDue d).live = d.live ∧
    (Dev.missingDue d).downlink = d.downlink ∧
    (Dev.missingDue d).remote = d.remote ∧
    (Dev.missingDue d).watch = d.watch ∧
    (Dev.missingDue d).feed = d.feed ∧
    (Dev.missingDue d).freeCount = d.freeCount := by
  unfold Dev.missingDue
  (repeat' split) <;> simp

/-- What `boundaryDue` leaves alone. -/
@[simp] theorem Dev.boundaryDue_frame (d : Dev) :
    (Dev.boundaryDue d).resetAsserted = d.resetAsserted ∧
    (Dev.boundaryDue d).mem = d.mem ∧
    (Dev.boundaryDue d).plan = d.plan ∧
    (Dev.boundaryDue d).report = d.report ∧
    (Dev.boundaryDue d).counters = d.counters ∧
    (Dev.boundaryDue d).tracker = d.tracker ∧
    (Dev.boundaryDue d).timing = d.timing ∧
    (Dev.boundaryDue d).remote = d.remote ∧
    (Dev.boundaryDue d).watch = d.watch ∧
    (Dev.boundaryDue d).feed = d.feed := by
  unfold Dev.boundaryDue
  (repeat' split) <;> simp

end Sys2Proof.Machine
end

