-- ==== Sys2Proof/Laws/Memory.lean ====
section
/-! SUPPORT. The laws of the addressed buffers: read after write, and the canonical form that every write keeps. -/

namespace Sys2Proof.Machine

/-- A form that starts higher starts lower too. -/
theorem Memory.wfFrom_mono {lo lo' : Nat} (h : lo' ≤ lo) : ∀ m : Memory, wfFrom lo m = true → wfFrom lo' m = true
  | [], _ => rfl
  | (k, v) :: m, hm => by
    simp only [wfFrom, Bool.and_eq_true, decide_eq_true_eq] at hm ⊢
    exact ⟨⟨by omega, hm.1.2⟩, hm.2⟩

/-- Below the first offset everything reads 0. -/
theorem Memory.read_below {lo a : Nat} : ∀ {m : Memory}, wfFrom lo m = true → a < lo → m.read a = 0
  | [], _, _ => rfl
  | (k, v) :: m, hm, ha => by
    simp only [wfFrom, Bool.and_eq_true, decide_eq_true_eq] at hm
    have hk : k ≠ a := by omega
    simp only [read, hk, if_false]
    exact read_below hm.2 (by omega)

/-- A write at or above the first offset keeps the form. -/
theorem Memory.wfFrom_write {lo a : Nat} (b : Byte) :
    ∀ {m : Memory}, wfFrom lo m = true → lo ≤ a → wfFrom lo (m.write a b) = true
  | [], _, ha => by
    unfold write
    split <;> simp_all [wfFrom]
  | (k, v) :: m, hm, ha => by
    have hm' := hm
    simp only [wfFrom, Bool.and_eq_true, decide_eq_true_eq] at hm
    obtain ⟨⟨hk, hv⟩, hm⟩ := hm
    unfold write
    split
    · split
      · exact hm'
      · simp_all [wfFrom]
    · split
      · split
        · exact wfFrom_mono (by omega) _ hm
        · subst_vars; simp_all [wfFrom]
      · have := wfFrom_write b (m := m) hm (by omega : k + 1 ≤ a)
        simp_all [wfFrom]

/-- Every write keeps the canonical form. -/
theorem Memory.wf_write {m : Memory} (a : Nat) (b : Byte) (h : m.wf = true) : (m.write a b).wf = true :=
  wfFrom_write b h (Nat.zero_le a)

/-- A read after a write: the byte written at its offset, the old byte at every other. -/
theorem Memory.read_write {lo : Nat} (a c : Nat) (b : Byte) :
    ∀ {m : Memory}, wfFrom lo m = true → (m.write a b).read c = if c = a then b else m.read c
  | [], _ => by
    unfold write
    split
    · simp_all [read]
    · simp only [read]; by_cases hc : a = c <;> simp [hc, eq_comm]
  | (k, v) :: m, hm => by
    simp only [wfFrom, Bool.and_eq_true, decide_eq_true_eq] at hm
    obtain ⟨⟨_, _⟩, hm⟩ := hm
    unfold write
    split
    · split
      · split
        · have h1 : k ≠ c := by omega
          simp only [read, h1, if_false]
          rw [read_below hm (by omega)]; simp_all
        · rfl
      · simp only [read]; by_cases hc : a = c <;> simp [hc, eq_comm]
    · split
      · split
        · simp only [read]
          by_cases hc : c = a
          · subst_vars; simpa using read_below hm (Nat.lt_succ_self _)
          · have : k ≠ c := by omega
            simp [hc, this]
        · simp only [read]
          by_cases hc : c = a
          · simp [hc]
          · have h1 : k ≠ c := by omega
            have h2 : a ≠ c := by omega
            simp [hc, h1, h2]
      · simp only [read]
        rw [read_write a c b hm]
        by_cases hk : k = c
        · have : c ≠ a := by omega
          simp [hk, this]
        · simp [hk]

/-- Putting bytes keeps the canonical form. -/
theorem Memory.wf_writeIn (lo hi : Nat) : ∀ (bs : List Byte) (m : Memory) (a : Nat), m.wf = true →
    (writeIn lo hi m a bs).wf = true
  | [], _, _, h => h
  | b :: bs, m, a, h => by
    unfold writeIn
    split
    · exact wf_writeIn lo hi bs _ _ (wf_write a b h)
    · exact wf_writeIn lo hi bs _ _ h

/-- What is read after bytes were put: the byte of the bytes where it falls in [lo, hi), else the old one. -/
theorem Memory.read_writeIn (lo hi : Nat) : ∀ (bs : List Byte) (m : Memory) (a c : Nat), m.wf = true →
    (writeIn lo hi m a bs).read c =
      if (lo ≤ c ∧ c < hi) ∧ a ≤ c ∧ c < a + bs.length then bs.getD (c - a) 0 else m.read c
  | [], m, a, c, _ => by
    have : ¬(a ≤ c ∧ c < a) := by omega
    simp [writeIn, this]
  | b :: bs, m, a, c, h => by
    unfold writeIn
    split
    · rename_i hin
      rw [read_writeIn lo hi bs _ _ c (wf_write a b h), read_write a c b h]
      by_cases hc : c = a
      · subst hc; simp [hin]
      · by_cases hr : (lo ≤ c ∧ c < hi) ∧ a + 1 ≤ c ∧ c < a + 1 + bs.length
        · have h1 : a ≤ c ∧ c < a + (bs.length + 1) := by omega
          obtain ⟨k, hk⟩ : ∃ k, c - a = k + 1 := ⟨c - a - 1, by omega⟩
          have h2 : c - (a + 1) = k := by omega
          simp [hr, h1, hk, h2]
        · have h1 : ¬((lo ≤ c ∧ c < hi) ∧ a ≤ c ∧ c < a + (bs.length + 1)) := by omega
          simp only [List.length_cons, h1, hr, hc, if_false]
    · rename_i hin
      rw [read_writeIn lo hi bs _ _ c h]
      by_cases hr : (lo ≤ c ∧ c < hi) ∧ a + 1 ≤ c ∧ c < a + 1 + bs.length
      · have h1 : a ≤ c ∧ c < a + (bs.length + 1) := by omega
        obtain ⟨k, hk⟩ : ∃ k, c - a = k + 1 := ⟨c - a - 1, by omega⟩
        have h2 : c - (a + 1) = k := by omega
        simp [hr, h1, hk, h2]
      · have h1 : ¬((lo ≤ c ∧ c < hi) ∧ a ≤ c ∧ c < a + (bs.length + 1)) := by
          rintro ⟨h3, h4⟩
          by_cases hc : c = a
          · subst hc; exact hin h3
          · exact hr ⟨h3, by omega⟩
        simp only [List.length_cons, h1, hr, if_false]

/-- Two buffers in canonical form that read alike are equal. -/
theorem Memory.ext_read : ∀ {m n : Memory} {lo : Nat}, wfFrom lo m = true → wfFrom lo n = true →
    (∀ a, m.read a = n.read a) → m = n
  | [], [], _, _, _, _ => rfl
  | [], (k, v) :: n, _, _, hn, h => by
    have := h k
    simp_all [wfFrom, read]
  | (k, v) :: m, [], _, hm, _, h => by
    have := h k
    simp_all [wfFrom, read]
  | (k, v) :: m, (k', v') :: n, _, hm, hn, h => by
    simp only [wfFrom, Bool.and_eq_true, decide_eq_true_eq] at hm hn
    have hk : k = k' := by
      rcases Nat.lt_trichotomy k k' with hlt | heq | hgt
      · have := h k
        have h1 : k' ≠ k := by omega
        simp only [read, if_true, h1, if_false] at this
        rw [read_below hn.2 (by omega)] at this
        exact absurd this hm.1.2
      · exact heq
      · have := h k'
        have h1 : k ≠ k' := by omega
        simp only [read, if_true, h1, if_false] at this
        rw [read_below hm.2 (by omega)] at this
        exact absurd this.symm hn.1.2
    subst hk
    have hv : v = v' := by have := h k; simpa [read] using this
    subst hv
    have : m = n := ext_read hm.2 hn.2 fun a => by
      by_cases ha : k = a
      · rw [read_below hm.2 (by omega), read_below hn.2 (by omega)]
      · have := h a; simpa [read, ha] using this
    rw [this]

/-- A piece put whole is its parts put one after the other. -/
theorem Memory.writeIn_append (lo hi : Nat) (m : Memory) (a : Nat) (x y : List Byte) :
    Memory.writeIn lo hi m a (x ++ y) = Memory.writeIn lo hi (Memory.writeIn lo hi m a x) (a + x.length) y := by
  induction x generalizing m a with
  | nil => rfl
  | cons b bs ih =>
    simp only [List.cons_append, Memory.writeIn, ih, List.length_cons]
    congr 1
    omega

/-- A piece that ends before the window changes nothing. -/
theorem Memory.writeIn_before (lo hi : Nat) (m : Memory) (a : Nat) (x : List Byte) (h : a + x.length ≤ lo) :
    Memory.writeIn lo hi m a x = m := by
  induction x generalizing m a with
  | nil => rfl
  | cons b bs ih =>
    rw [List.length_cons] at h
    rw [Memory.writeIn, if_neg (by omega)]
    exact ih m (a + 1) (by omega)

/-- The shadow and the live-word copy have the canonical form at reset. -/
theorem State.reset_wf : State.reset.dev.plan.shadow.wf = true ∧ State.reset.dev.plan.live.wf = true := ⟨rfl, rfl⟩

end Sys2Proof.Machine
end

