-- ==== Sys2Proof/Laws/Ops.lean ====
section
/-! SUPPORT. What each shared operation can do, said once: how a command runs, how an order is taken and answered, how an
entry is offered, how a record falls due, how a response reaches its owner. -/

namespace Sys2Proof.Machine

/-! ### How a command runs -/

/-- A command without a response always answers a next state; under RESET it changes nothing. -/
theorem State.run_eq (f : Dev → Dev) (d : Dev) (q : List Instr) :
    State.run f ⟨d, q⟩ = .next ⟨if d.resetAsserted then d else f d, q⟩ := by
  unfold State.run
  split <;> simp_all

/-- Out of RESET a command is its operation. -/
theorem State.run_of_released (f : Dev → Dev) {d : Dev} {q : List Instr} (h : d.resetAsserted = false) :
    State.run f ⟨d, q⟩ = .next ⟨f d, q⟩ := by simp [State.run_eq, h]

/-- A command that carries a response keeps the queue, and does the same to the block whatever waits. -/
theorem State.runReply_queue (f : Dev → Host.Outcome Dev Fault Refusal) {d : Dev} {q : List Instr} {t : State}
    (h : State.runReply f ⟨d, q⟩ = .next t) :
    t.pending = q ∧ ∀ q', State.runReply f ⟨d, q'⟩ = .next ⟨t.dev, q'⟩ := by
  unfold State.runReply at *
  split at h <;> simp_all
  · rw [← h]; simp
  · cases hf : f d <;> simp_all
    rw [← h]; simp

/-- A matched response of the right class and form: its record goes, an error is counted, the owner takes it. -/
theorem State.runReply_deliver (mine : Owner → Bool) {d : Dev} {q : List Instr} {tag : Nat} {reply : MemReply}
    {r : InFlight} (h : d.resetAsserted = false) (hr : d.mem.record tag = some r) (hm : mine r.owner = true)
    (hf : r.fits reply = true) :
    State.runReply (Dev.response mine tag reply) ⟨d, q⟩ =
      .next ⟨Dev.toOwner r.owner reply (Dev.countError r reply (d.dropRecord tag)), q⟩ := by
  have ht : r.tag = tag := by simpa using List.find?_some hr
  simp [State.runReply, h, Dev.response, hr, hm, hf, Dev.deliver, ht]

/-- A response that no record matches changes nothing. -/
theorem State.runReply_unmatched (mine : Owner → Bool) {d : Dev} {q : List Instr} {tag : Nat} {reply : MemReply}
    (hr : d.mem.record tag = none) : State.runReply (Dev.response mine tag reply) ⟨d, q⟩ = .next ⟨d, q⟩ := by
  unfold State.runReply
  split <;> simp [Dev.response, hr]

/-- Data count as no error. -/
@[simp] theorem Dev.countError_data (r : InFlight) (bs : List Byte) (d : Dev) : d.countError r (.data bs) = d := by
  simp [Dev.countError, replyOk]

/-- A completion counts as no error. -/
@[simp] theorem Dev.countError_done (r : InFlight) (d : Dev) : d.countError r .done = d := by
  simp [Dev.countError, replyOk]

/-- An error without a tracking handle moves the memory-error counter only. -/
theorem Dev.countError_error {r : InFlight} (h : r.handle = []) (d : Dev) :
    d.countError r .error = d.count fun c => { c with memoryErrors := satInc c.memoryErrors } := by
  simp [Dev.countError, replyOk, h]

/-- An error with a tracking handle: the rows of each entry whose binding is in force join the damage lists (R64). -/
theorem Dev.errorDamage_foldl (hs : List HandleEntry) (d : Dev) :
    hs.foldl (fun d h => d.errorDamage h) d = { d with ring := { d.ring with slots := d.handleDamage hs } } := by
  induction hs generalizing d with
  | nil => simp only [List.foldl_nil, Dev.handleDamage]; split <;> rfl
  | cons h hs ih =>
    rw [List.foldl_cons, ih]
    unfold Dev.handleDamage
    cases hw : d.plan.working with
    | none =>
      have : d.errorDamage h = d := by simp [Dev.errorDamage, Dev.plan?, hw]
      simp [this, hw]
    | some w =>
      have h0 : d.errorDamage h =
          if [CtxId.c0, .c1].any (fun i => (d.tracker.ctx i).any fun c =>
            decide (h.binding = some c.binding) && decide (c.slot = h.slot)) = true
          then d.addDamage w.plan h.slot h.tile h.first h.last else d := by
        unfold Dev.errorDamage
        simp only [Dev.plan?, hw, Option.map_some]
        cases hb : h.binding with
        | none => simp
        | some n =>
          simp only [Tracker.ctx, List.any_cons, List.any_nil, Bool.or_false]
          have e : ∀ c : Context, (decide (some n = some c.binding) && decide (c.slot = h.slot)) =
              (decide (c.binding = n) && decide (c.slot = h.slot)) := fun c => by congr 1; simp [eq_comm]
          simp only [e]
      rw [h0]
      simp only [List.foldl_cons]
      split <;> simp [hw, Dev.addDamage, Dev.updSlot]

/-- An error is counted, and the tracking handle's rows become damage (R9, R14, R64). -/
theorem Dev.countError_handle (r : InFlight) (d : Dev) : d.countError r .error = { d with
    counters := { d.counters with memoryErrors := satInc d.counters.memoryErrors }
    ring := { d.ring with slots := d.handleDamage r.handle } } := by
  simp [Dev.countError, replyOk, Dev.errorDamage_foldl, Dev.count, Dev.handleDamage]

/-! ### Orders -/

/-- An order that can be taken leaves its queue and is carried out. -/
theorem Dev.takeOrder_of_ready {c : Instr} {d : Dev} {q : List Instr} (f : Dev → Dev) (h : Ready c ⟨d, q⟩) :
    State.run (Dev.takeOrder c f) ⟨d, q⟩ = .next ⟨f d.popOrder, q⟩ := by
  obtain ⟨h1, h2, h3, h4⟩ := h
  simp only at h1 h2 h3 h4
  have h5 : 1 ≤ 64 - d.downlink.ctrl.length := by omega
  simp [State.run_eq, h1, Dev.takeOrder, Dev.mayTake, h2, Downlink.free, h5, h4]

/-- An order taken and answered at once, where the control queue still has room. -/
theorem Dev.respond_admitted {d : Dev} (kind : Byte) (tag : Tag) (st : Status) (data : List Byte)
    (h : d.downlink.ctrl.length < 64) : d.respond kind tag st data =
      (d.enqueue (.response kind tag st data)).setExecutor .idle := by
  have h5 : 1 ≤ 64 - d.downlink.ctrl.length := by omega
  simp [Dev.respond, Dev.offerResponse, Dev.admits, Entry.threshold, Downlink.free, h5]

/-- A RESPONSE that finds the control queue full is held. -/
theorem Dev.respond_held {d : Dev} (kind : Byte) (tag : Tag) (st : Status) (data : List Byte)
    (h : 64 ≤ d.downlink.ctrl.length) : d.respond kind tag st data =
      d.setExecutor (.responding (.response kind tag st data)) := by
  have h5 : ¬1 ≤ 64 - d.downlink.ctrl.length := by omega
  simp [Dev.respond, Dev.offerResponse, Dev.admits, Entry.threshold, Downlink.free, h5]

/-- An offered RESPONSE, in the words of the claims: admitted or held. -/
theorem Dev.respond_eq (kind : Byte) (tag : Tag) (st : Status) (data : List Byte) (d : Dev) :
    d.respond kind tag st data = d.responds kind tag st data := by
  by_cases h : d.downlink.ctrl.length < 64
  · rw [Dev.respond_admitted kind tag st data h, Dev.responds, if_pos h]; rfl
  · rw [Dev.respond_held kind tag st data (by omega), Dev.responds, if_neg h]; rfl

/-- The answer of a taken order, in the words of the claims. -/
theorem Dev.respond_popOrder (kind : Byte) (tag : Tag) (st : Status) (data : List Byte) (d : Dev) :
    d.popOrder.respond kind tag st data = d.answered kind tag st data := Dev.respond_eq ..

/-- A memory order is answered by the first check that fails, or its request is presented. -/
theorem Dev.memOrder_popOrder {d : Dev} (kind : Byte) (tag : Tag) (ok : Bool) (a n : Nat) (o : MemOrder)
    (use : RemoteUse) (op : BusOp) :
    d.popOrder.memOrder kind tag ok a n o use op = match d.memCheck ok a n with
      | some st => d.answered kind tag st []
      | none => d.presented kind tag o use op := by
  have hc : d.popOrder.memCheck ok a n = d.memCheck ok a n := rfl
  unfold Dev.memOrder
  rw [hc]
  cases d.memCheck ok a n with
  | none => rfl
  | some st => exact Dev.respond_popOrder kind tag st [] d

/-! ### The control queue -/

/-- An entry offered while the free entries reach its threshold is appended; else it is dropped and counted. -/
theorem Dev.offer_cases (e : Entry) (d : Dev) :
    (e.threshold ≤ 64 - d.downlink.ctrl.length ∧ d.offer e = d.enqueue e) ∨
    (64 - d.downlink.ctrl.length < e.threshold ∧ d.offer e = d.dropEntry) := by
  by_cases h : e.threshold ≤ 64 - d.downlink.ctrl.length
  · exact .inl ⟨h, by simp [Dev.offer, Dev.admits, Downlink.free, h]⟩
  · exact .inr ⟨by omega, by simp [Dev.offer, Dev.admits, Downlink.free, h]⟩

/-- A WATCH offer rewrites the waiting entry of its id, or is appended with 17 entries free, or is dropped and counted. -/
theorem Dev.offerWatch_cases (id : Nat) (value : List Byte) (time : HeadTime) (d : Dev) :
    (d.downlink.ctrl.any (Entry.isWatch id) = true ∧ d.offerWatch id value time =
      ({ d with downlink := { d.downlink with
          ctrl := d.downlink.ctrl.map fun e => if e.isWatch id then e.coalesce value time else e } }, true)) ∨
    (d.downlink.ctrl.any (Entry.isWatch id) = false ∧ d.downlink.ctrl.length ≤ 47 ∧
      d.offerWatch id value time = (d.enqueue (.watch id value time 1), true)) ∨
    (d.downlink.ctrl.any (Entry.isWatch id) = false ∧ 47 < d.downlink.ctrl.length ∧
      d.offerWatch id value time = (d.dropEntry, false)) := by
  cases h : d.downlink.ctrl.any (Entry.isWatch id)
  · by_cases h2 : d.downlink.ctrl.length ≤ 47
    · have h3 : 17 ≤ 64 - d.downlink.ctrl.length := by omega
      exact .inr (.inl ⟨rfl, h2, by
        simp only [Dev.offerWatch, h, Dev.admits, Entry.threshold, Downlink.free, h3]; rfl⟩)
    · have h3 : ¬17 ≤ 64 - d.downlink.ctrl.length := by omega
      exact .inr (.inr ⟨rfl, by omega, by
        simp only [Dev.offerWatch, h, Dev.admits, Entry.threshold, Downlink.free, h3]; rfl⟩)
  · exact .inl ⟨rfl, by simp only [Dev.offerWatch, h, if_true]⟩

/-! ### The status record -/

/-- Presenting the next write leaves the causes, the number, the record and the timer. -/
@[simp] theorem Report.present_frame (r : Report) :
    r.present.causes = r.causes ∧ r.present.recordNumber = r.recordNumber ∧ r.present.writing = r.writing ∧
    r.present.recordDue = r.recordDue ∧ r.present.producer = r.producer ∧ r.present.timerDue = r.timerDue := by
  unfold Report.present
  split
  · simp
  · split
    · simp
    · split <;> simp

/-- A record falls due: the flag is set while one is being written, else a snapshot with the next number is taken. -/
theorem Dev.recordDue_cases (d : Dev) :
    (d.report.writing ≠ none ∧ d.recordDue = { d with report := { d.report with recordDue := true } }) ∨
    (d.report.writing = none ∧ d.recordDue = d.startRecord ∧
      d.startRecord.report.recordNumber = d.report.recordNumber + 1 ∧
      d.startRecord.report.writing = some (d.snapshot (d.report.recordNumber + 1)) ∧
      d.startRecord.report.causes = d.report.causes) := by
  cases h : d.report.writing with
  | none => exact .inr ⟨rfl, by simp [Dev.recordDue, h], by simp [Dev.startRecord]⟩
  | some r => exact .inl ⟨by simp, by simp [Dev.recordDue, h]⟩

/-- Setting a cause that is set changes nothing. -/
theorem Dev.setCause_again {c : Cause} {d : Dev} (h : d.report.causes.get c = true) : d.setCause c = d := by
  simp [Dev.setCause, h]

/-- Setting a cause touches the report writer alone, as `Report.CauseSet` says (R32, R33, R34). -/
theorem Dev.setCause_spec (c : Cause) (d : Dev) :
    ∃ rep, d.setCause c = { d with report := rep } ∧ Report.CauseSet c d.report rep := by
  unfold Dev.setCause
  cases h : d.report.causes.get c with
  | true =>
    have hs : d.report.causes.set c = d.report.causes := by
      cases hc : d.report.causes
      cases c <;> simp_all [Causes.get, Causes.set]
    exact ⟨d.report, by simp, hs.symm, fun _ => rfl, by simp [h], by simp [h]⟩
  | false =>
    cases hw : d.report.writing with
    | none => refine ⟨_, by simp [Dev.recordDue, hw, Dev.startRecord]; rfl, ?_, ?_, ?_, ?_⟩ <;> simp [h, hw]
    | some w => refine ⟨_, by simp [Dev.recordDue, hw]; rfl, ?_, ?_, ?_, ?_⟩ <;> simp [h, hw]

/-! ### A further command, as the claims name it -/

/-- Beginning a live fetch leaves the RESET pin as it stands. -/
theorem Dev.liveBegin?_reset {d e : Dev} (h : d.liveBegin? = some e) : e.resetAsserted = d.resetAsserted := by
  unfold Dev.liveBegin? at h
  split at h
  · split at h
    · split at h
      · cases h
      · cases h; rfl
    · cases h
  · cases h

/-- Beginning a replay fetch leaves the RESET pin as it stands. -/
theorem Dev.replayBegin?_reset {d e : Dev} (h : d.replayBegin? = some e) : e.resetAsserted = d.resetAsserted := by
  unfold Dev.replayBegin? at h
  split at h
  · split at h
    · cases h; rfl
    · cases h
  · cases h

/-- LIVE_FETCH_BEGIN out of RESET: the fetch that may begin, if one may. -/
theorem Dev.thenDo_live {d : Dev} (h : d.resetAsserted = false) : d.thenDo .liveFetchBegin = d.liveBegin?.getD d := by
  simp [Dev.thenDo, exec, execLiveFetchBegin, State.run_of_released _ h]

/-- REPLAY_FETCH_BEGIN out of RESET: the fetch that may begin, if one may. -/
theorem Dev.thenDo_replay {d : Dev} (h : d.resetAsserted = false) :
    d.thenDo .replayFetchBegin = d.replayBegin?.getD d := by
  simp [Dev.thenDo, exec, execReplayFetchBegin, State.run_of_released _ h]

/-- DRAIN_WRITE_BEGIN out of RESET is the return feed's look for a drain write. -/
theorem Dev.thenDo_drain {d : Dev} (h : d.resetAsserted = false) : d.thenDo .drainWriteBegin = d.drainExamine := by
  simp [Dev.thenDo, exec, execDrainWriteBegin, State.run_of_released _ h]

/-- The live reader's look for lines is LIVE_FETCH_BEGIN done twice (R131). -/
theorem Dev.fetchLive_eq {d : Dev} (h : d.resetAsserted = false) : d.fetchLive = d.liveExamine := by
  unfold Dev.fetchLive Dev.liveExamine
  rw [Dev.thenDo_live h]
  cases hb : d.liveBegin? with
  | none => simp [Dev.thenDo_live h, hb]
  | some e => simp [Dev.thenDo_live ((Dev.liveBegin?_reset hb).trans h)]

/-- The replay reader's look for lines is REPLAY_FETCH_BEGIN done twice (R139). -/
theorem Dev.fetchReplay_eq {d : Dev} (h : d.resetAsserted = false) : d.fetchReplay = d.replayExamine := by
  unfold Dev.fetchReplay Dev.replayExamine
  rw [Dev.thenDo_replay h]
  cases hb : d.replayBegin? with
  | none => simp [Dev.thenDo_replay h, hb]
  | some e => simp [Dev.thenDo_replay ((Dev.replayBegin?_reset hb).trans h)]

/-- Which lines are sendable depends on the slot table and the tracker alone (R74). -/
theorem Dev.sendable_congr {d e : Dev} (hs : e.ring.slots = d.ring.slots) (ht : e.tracker = d.tracker) (p : Plan)
    (s y : Nat) : e.sendable p s y = d.sendable p s y := by
  simp only [Dev.sendable, Ring.slot, hs, ht]

/-- The live reader's look for lines reads the plan, the slot table, the tracker and the reader, and moves the reader
alone (R131). -/
theorem Dev.liveBegin?_congr {d e : Dev} (hp : e.plan = d.plan) (hl : e.live = d.live)
    (hs : e.ring.slots = d.ring.slots) (ht : e.tracker = d.tracker) :
    e.liveBegin? = d.liveBegin?.map fun x => { e with live := x.live } := by
  have hc : ∀ p s, e.liveChoice p s = d.liveChoice p s := fun p s => by
    have hm : ∀ y, e.liveMaySend p s y = d.liveMaySend p s y := fun y => by
      simp only [Dev.liveMaySend, Dev.sendable_congr hs ht]
    have ha : e.arrivalChoice p s = d.arrivalChoice p s := by simp only [Dev.arrivalChoice, hm, hl]
    unfold Dev.liveChoice
    rw [hl, hm, ha]
  have hq : ∀ s, e.ring.slot s = d.ring.slot s := fun s => by simp only [Ring.slot, hs]
  unfold Dev.liveBegin?
  rw [show e.plan? = d.plan? by simp only [Dev.plan?, hp], hl]
  split
  · split
    · rw [hc]
      split
      · rfl
      · simp only [hq, Option.map_some]
    · rfl
  · rfl

/-- So with the second look as with the first: the live reader's fetches do not touch the other parts of the block. -/
theorem Dev.liveExamine_congr {d e : Dev} (hp : e.plan = d.plan) (hl : e.live = d.live)
    (hs : e.ring.slots = d.ring.slots) (ht : e.tracker = d.tracker) :
    e.liveExamine = { e with live := d.liveExamine.live } := by
  have h1 := Dev.liveBegin?_congr hp hl hs ht
  unfold Dev.liveExamine
  rw [h1]
  cases h : d.liveBegin? with
  | none => simp [← hl]
  | some x =>
    have h2 := Dev.liveBegin?_congr (d := d) (e := d) rfl rfl rfl rfl
    rw [h] at h2
    have hx : x = { d with live := x.live } := by simpa using h2
    have h3 : ({ e with live := x.live } : Dev).liveBegin? = x.liveBegin?.map fun z => { e with live := z.live } := by
      rw [Dev.liveBegin?_congr (d := x) (e := { e with live := x.live }) (by rw [hx]; exact hp) rfl (by rw [hx]; exact hs)
        (by rw [hx]; exact ht)]
    simp only [Option.map_some, h3]
    cases x.liveBegin? <;> simp

/-! ### Free orders -/

/-- Insertion at any place permutes. -/
theorem insertAt_perm {α : Type} (n : Nat) (x : α) (l : List α) : (insertAt n x l).Perm (x :: l) := by
  induction l generalizing n with
  | nil => cases n <;> simp [insertAt]
  | cons y l ih =>
    cases n with
    | zero => simp [insertAt]
    | succ n => exact ((ih n).cons y).trans (List.Perm.swap x y l)

/-- Whatever the free value, the chosen order holds each event once. -/
theorem pickOrder_perm {α : Type} (n : Nat) (l : List α) : (pickOrder n l).Perm l := by
  induction n, l using pickOrder.induct with
  | case1 => simp [pickOrder]
  | case2 => simp [pickOrder]
  | case3 n x y l ih => exact (insertAt_perm _ _ _).trans (ih.cons x)

/-! ### Orders' bytes -/

/-- `n` bytes are written for an `n`-byte number. -/
@[simp] theorem length_leBytes (n v : Nat) : (leBytes n v).length = n := by
  induction n generalizing v <;> simp [leBytes, *]

/-- The bytes of a number, read back. -/
theorem leNat_leBytes (n v : Nat) : leNat (leBytes n v) = v % 256 ^ n := by
  induction n generalizing v with
  | zero => simp [leBytes, leNat, Nat.mod_one]
  | succ n ih =>
    simp [leBytes, leNat, ih, Nat.pow_succ]
    rw [Nat.mul_comm (256 ^ n) 256, Nat.mod_mul]

end Sys2Proof.Machine
end

