-- ==== Sys2Proof/Laws/PerInstr.lean ====
section
/-! SUPPORT. The family OrderLength: the bytes of every well-formed queued order have a length the order table allows and a
kind of the queued kinds (R165, R169, R197). -/

namespace Sys2Proof.Laws.OrderLength

open Sys2Proof Sys2Proof.Machine

/-- The encoding of a well-formed command that has one is an order of allowed length and queued kind. -/
def Statement (i : Instr) : Prop :=
  i.wf = true → ∀ o, encodeOrder i = some o → orderLengthOk o.kind.toNat o.body.length = true ∧ 16 ≤ o.kind.toNat

theorem resetAssert : Statement .resetAssert := fun _ _ ho => nomatch ho
theorem deviceReset (straps : Straps) : Statement (.deviceReset straps) := fun _ _ ho => nomatch ho
theorem headSideRequest (ident : Nat) (op : BusOp) : Statement (.headSideRequest ident op) := fun _ _ ho => nomatch ho
theorem grantDecision : Statement .grantDecision := fun _ _ ho => nomatch ho
theorem stagingWrite (off : BitVec 16) (bytes : List Byte) :
    Statement (.stagingWrite off bytes) := fun _ _ ho => nomatch ho
theorem commit (word : BitVec 32) : Statement (.commit word) := fun _ _ ho => nomatch ho
theorem attentionAck (causes : BitVec 32) : Statement (.attentionAck causes) := fun _ _ ho => nomatch ho
theorem returnConsumed (addr : BitVec 64) : Statement (.returnConsumed addr) := fun _ _ ho => nomatch ho
theorem memoryResponse (reqTag : Nat) (reply : MemReply) :
    Statement (.memoryResponse reqTag reply) := fun _ _ ho => nomatch ho
theorem parkedAssert : Statement .parkedAssert := fun _ _ ho => nomatch ho
theorem parkedWithdraw : Statement .parkedWithdraw := fun _ _ ho => nomatch ho
theorem reportTimer : Statement .reportTimer := fun _ _ ho => nomatch ho
theorem reportWriteDone (reqTag : Nat) (reply : MemReply) :
    Statement (.reportWriteDone reqTag reply) := fun _ _ ho => nomatch ho
theorem anchorEvent : Statement .anchorEvent := fun _ _ ho => nomatch ho
theorem capture : Statement .capture := fun _ _ ho => nomatch ho
theorem frameStartEnd : Statement .frameStartEnd := fun _ _ ho => nomatch ho
theorem tileDeadlineExpiry (ctx : Nat) (tile : Nat) :
    Statement (.tileDeadlineExpiry ctx tile) := fun _ _ ho => nomatch ho
theorem echoTimer : Statement .echoTimer := fun _ _ ho => nomatch ho
theorem headStatusTimer : Statement .headStatusTimer := fun _ _ ho => nomatch ho
theorem referenceLossDeadline : Statement .referenceLossDeadline := fun _ _ ho => nomatch ho
theorem uplinkFrameStart : Statement .uplinkFrameStart := fun _ _ ho => nomatch ho
theorem uplinkFrame (bytes : List Byte) : Statement (.uplinkFrame bytes) := fun _ _ ho => nomatch ho
theorem missingFrameExpiry : Statement .missingFrameExpiry := fun _ _ ho => nomatch ho
theorem reference (count : BitVec 32) (arrival : HeadTime) :
    Statement (.reference count arrival) := fun _ _ ho => nomatch ho
theorem echoReturn (seq : BitVec 16) (stamp : HeadTime) (turnaround : BitVec 32) (arrival : HeadTime) :
    Statement (.echoReturn seq stamp turnaround arrival) := fun _ _ ho => nomatch ho
theorem credit (n : BitVec 8) : Statement (.credit n) := fun _ _ ho => nomatch ho
theorem returnData (bytes : List Byte) : Statement (.returnData bytes) := fun _ _ ho => nomatch ho
theorem gateRun (tag : Tag) : Statement (.gateRun tag) :=
  fun _ _ ho => by cases ho; exact ⟨rfl, Nat.le_of_ble_eq_true rfl⟩
theorem gatePause (tag : Tag) : Statement (.gatePause tag) :=
  fun _ _ ho => by cases ho; exact ⟨rfl, Nat.le_of_ble_eq_true rfl⟩
theorem gateStep (tag : Tag) : Statement (.gateStep tag) :=
  fun _ _ ho => by cases ho; exact ⟨rfl, Nat.le_of_ble_eq_true rfl⟩
theorem gateMark (tag : Tag) (n : BitVec 16) : Statement (.gateMark tag n) :=
  fun _ _ ho => by cases ho; exact ⟨rfl, Nat.le_of_ble_eq_true rfl⟩
theorem replay (tag : Tag) (frame : FrameNo) (first : BitVec 16) (count : BitVec 16) (paced : Bool) :
    Statement (.replay tag frame first count paced) :=
    fun _ _ ho => by cases ho; exact ⟨rfl, Nat.le_of_ble_eq_true rfl⟩
theorem cancelCurrent (tag : Tag) : Statement (.cancelCurrent tag) :=
  fun _ _ ho => by cases ho; exact ⟨rfl, Nat.le_of_ble_eq_true rfl⟩
theorem cancelAll (tag : Tag) : Statement (.cancelAll tag) :=
  fun _ _ ho => by cases ho; exact ⟨rfl, Nat.le_of_ble_eq_true rfl⟩
theorem hold (tag : Tag) (frame : FrameNo) : Statement (.hold tag frame) :=
  fun _ _ ho => by cases ho; exact ⟨rfl, Nat.le_of_ble_eq_true rfl⟩
theorem release (tag : Tag) (frame : FrameNo) : Statement (.release tag frame) :=
  fun _ _ ho => by cases ho; exact ⟨rfl, Nat.le_of_ble_eq_true rfl⟩
theorem releaseAll (tag : Tag) : Statement (.releaseAll tag) :=
  fun _ _ ho => by cases ho; exact ⟨rfl, Nat.le_of_ble_eq_true rfl⟩
theorem clear (tag : Tag) : Statement (.clear tag) :=
  fun _ _ ho => by cases ho; exact ⟨rfl, Nat.le_of_ble_eq_true rfl⟩
theorem watchSet (tag : Tag) (id : BitVec 8) (addr : BitVec 40) (len : BitVec 8) (mode : BitVec 8) :
    Statement (.watchSet tag id addr len mode) := fun _ _ ho => by cases ho; exact ⟨rfl, Nat.le_of_ble_eq_true rfl⟩
theorem watchSeedDone (reqTag : Nat) (reply : MemReply) :
    Statement (.watchSeedDone reqTag reply) := fun _ _ ho => nomatch ho
theorem watchClear (tag : Tag) (id : BitVec 8) : Statement (.watchClear tag id) :=
  fun _ _ ho => by cases ho; exact ⟨rfl, Nat.le_of_ble_eq_true rfl⟩
theorem page (tag : Tag) (n : BitVec 16) : Statement (.page tag n) :=
  fun _ _ ho => by cases ho; exact ⟨rfl, Nat.le_of_ble_eq_true rfl⟩
theorem point (tag : Tag) (addr : BitVec 40) : Statement (.point tag addr) :=
  fun _ _ ho => by cases ho; exact ⟨rfl, Nat.le_of_ble_eq_true rfl⟩
theorem read (tag : Tag) (offset : BitVec 24) (count : BitVec 8) : Statement (.read tag offset count) :=
  fun _ _ ho => by cases ho; exact ⟨rfl, Nat.le_of_ble_eq_true rfl⟩
theorem write (tag : Tag) (offset : BitVec 24) (bytes : List Byte) : Statement (.write tag offset bytes) := by
  intro h o ho
  simp [Instr.wf] at h
  simp only [encodeOrder, Option.some.injEq] at ho
  subst ho
  simp [orderLengthOk]
  omega
theorem readNext (tag : Tag) (count : BitVec 8) : Statement (.readNext tag count) :=
  fun _ _ ho => by cases ho; exact ⟨rfl, Nat.le_of_ble_eq_true rfl⟩
theorem writeNext (tag : Tag) (bytes : List Byte) : Statement (.writeNext tag bytes) := by
  intro h o ho
  simp [Instr.wf] at h
  simp only [encodeOrder, Option.some.injEq] at ho
  subst ho
  simp [orderLengthOk]
  omega
theorem maskWrite (tag : Tag) (offset : BitVec 24) (value : List Byte) (mask : List Byte) :
    Statement (.maskWrite tag offset value mask) := by
  intro h o ho
  simp [Instr.wf] at h
  simp only [encodeOrder, Option.some.injEq] at ho
  subst ho
  simp [orderLengthOk]
  omega
theorem maskWriteReadDone (reqTag : Nat) (reply : MemReply) :
    Statement (.maskWriteReadDone reqTag reply) := fun _ _ ho => nomatch ho
theorem remoteAccessDone (reqTag : Nat) (reply : MemReply) :
    Statement (.remoteAccessDone reqTag reply) := fun _ _ ho => nomatch ho
theorem responseOffer : Statement .responseOffer := fun _ _ ho => nomatch ho
theorem liveFetchBegin : Statement .liveFetchBegin := fun _ _ ho => nomatch ho
theorem replayFetchBegin : Statement .replayFetchBegin := fun _ _ ho => nomatch ho
theorem lineFetchResponse (reqTag : Nat) (reply : MemReply) :
    Statement (.lineFetchResponse reqTag reply) := fun _ _ ho => nomatch ho
theorem replayEndOffer : Statement .replayEndOffer := fun _ _ ho => nomatch ho
theorem cellBoundary : Statement .cellBoundary := fun _ _ ho => nomatch ho
theorem drainWriteBegin : Statement .drainWriteBegin := fun _ _ ho => nomatch ho
theorem drainWriteDone (reqTag : Nat) (reply : MemReply) :
    Statement (.drainWriteDone reqTag reply) := fun _ _ ho => nomatch ho
theorem gateUnknownAction (tag : Tag) (action : BitVec 8) : Statement (.gateUnknownAction tag action) :=
  fun _ _ ho => by cases ho; exact ⟨rfl, Nat.le_of_ble_eq_true rfl⟩

end Sys2Proof.Laws.OrderLength
end

