-- ==== Sys2Proof/Laws/Replay.lean ====
section
/-! SUPPORT. What offering the REPLAY-END entries and starting queued requests can do, one request at a time (section 7.4). -/

namespace Sys2Proof.Machine

/-- REPLAY_END_OFFER out of RESET lets the replay reader settle. -/
theorem Dev.thenDo_replayEnd {d : Dev} (h : d.resetAsserted = false) : d.thenDo .replayEndOffer = d.replaySettle := by
  simp [Dev.thenDo, exec, execReplayEndOffer, State.run_of_released _ h]

/-- The rounds that settling needs: two for a queued request and one for a request in ENDING, and none while the current
request waits or sends. -/
def ReplayReader.rounds (r : ReplayReader) : Nat :=
  match r.current.map (·.stage) with
  | none => 2 * r.queue.length
  | some (.ending _) => 2 * r.queue.length + 1
  | some .waitingClose | some .sending => 0

/-- A fetch begun leaves the queue and the stage of the current request. -/
theorem Dev.replayBegin?_rounds {d e : Dev} (h : d.replayBegin? = some e) : e.replay.rounds = d.replay.rounds := by
  unfold Dev.replayBegin? at h
  split at h
  · split at h
    · cases h
      simp [ReplayReader.rounds, *]
    · cases h
  · cases h

/-- Nor do the fetches that begin when the reader looks for lines. -/
theorem Dev.replayExamine_rounds (d : Dev) : d.replayExamine.replay.rounds = d.replay.rounds := by
  unfold Dev.replayExamine
  cases h : d.replayBegin? with
  | none => rfl
  | some e =>
    cases h2 : e.replayBegin? with
    | none => simpa [h2] using Dev.replayBegin?_rounds h
    | some f => simpa [h2] using (Dev.replayBegin?_rounds h2).trans (Dev.replayBegin?_rounds h)

/-- A request started needs at most one round beside those of the queue. -/
theorem Dev.startRequest_rounds (q : ReplayReq) (d : Dev) :
    (d.startRequest q).replay.rounds ≤ 2 * d.replay.queue.length + 1 := by
  unfold Dev.startRequest
  split
  · simp [ReplayReader.rounds, Dev.setCurrent, CurrentReq.endedAtStart]
  · split
    · simp [ReplayReader.rounds, Dev.setCurrent, CurrentReq.endedAtStart]
    · split
      · simp [ReplayReader.rounds, Dev.setCurrent]
      · rw [Dev.enterSending, Dev.replayExamine_rounds]
        simp [ReplayReader.rounds, Dev.setCurrent, Dev.mark, Dev.updSlot]

/-- A request whose entry was admitted needs no round any more. -/
theorem Dev.finishRequest_rounds (c : CurrentReq) (e : Entry) (d : Dev) :
    ((d.enqueue e).finishRequest c).replay.rounds = 2 * d.replay.queue.length := by
  unfold Dev.finishRequest
  split <;> simp [ReplayReader.rounds, Dev.setCurrent, Dev.unmark, Dev.updSlot, Dev.enqueue]

/-- With no entry owed and no request to start, nothing happens. -/
theorem Dev.replayPump_stopped (n : Nat) {d : Dev} (h : d.replay.rounds = 0) : d.replayPump n = d := by
  unfold ReplayReader.rounds at h
  cases n with
  | zero => rfl
  | succ n =>
    rw [Dev.replayPump]
    cases hc : d.replay.current with
    | none => cases hq : d.replay.queue <;> simp_all
    | some c => cases hs : c.stage <;> simp_all

/-- Rounds beyond those that are needed change nothing. -/
theorem Dev.replayPump_rounds (n : Nat) : ∀ {d : Dev}, d.replay.rounds ≤ n → d.replayPump (n + 1) = d.replayPump n := by
  induction n with
  | zero =>
    intro d h
    rw [Dev.replayPump_stopped 1 (by omega), Dev.replayPump_stopped 0 (by omega)]
  | succ n ih =>
    intro d h
    rw [Dev.replayPump, Dev.replayPump]
    cases hc : d.replay.current with
    | none =>
      cases hq : d.replay.queue with
      | nil => rfl
      | cons q qs =>
        refine ih (Nat.le_trans (Dev.startRequest_rounds _ _) ?_)
        simp only [ReplayReader.rounds, hc, hq, List.length_cons, Option.map_none] at h
        simp only
        omega
    | some c =>
      simp only
      cases hs : c.stage with
      | waitingClose => rfl
      | sending => rfl
      | ending st =>
        simp only
        split
        · refine ih ?_
          rw [Dev.finishRequest_rounds]
          simp only [ReplayReader.rounds, hc, hs, Option.map_some] at h
          omega
        · rfl

/-- Any number of rounds that is enough settles the reader. -/
theorem Dev.replayPump_enough {d : Dev} {n : Nat} (h : d.replay.rounds ≤ n) : d.replayPump n = d.replaySettle := by
  have up : ∀ k, d.replayPump (d.replay.rounds + k) = d.replayPump d.replay.rounds := fun k => by
    induction k with
    | zero => rfl
    | succ k ih => rw [← Nat.add_assoc, Dev.replayPump_rounds _ (by omega), ih]
  have hr : d.replay.rounds ≤ 2 * d.replay.queue.length + 3 := by
    unfold ReplayReader.rounds
    split <;> omega
  obtain ⟨k, rfl⟩ := Nat.exists_eq_add_of_le h
  obtain ⟨m, hm⟩ := Nat.exists_eq_add_of_le hr
  rw [up, Dev.replaySettle, hm, up]

/-- A request in ENDING: its entry is admitted and it ceases to be current, and the reader settles on; or it stays. -/
theorem Dev.replaySettle_ending {d : Dev} {c : CurrentReq} {st : Status} (hc : d.replay.current = some c)
    (hs : c.stage = .ending st) : d.replaySettle =
      if d.downlink.ctrl.length < 64 then ((d.enqueue (c.endEntry st)).finishRequest c).replaySettle else d := by
  have ha : d.admits (c.endEntry st) = decide (d.downlink.ctrl.length < 64) := by
    simp only [Dev.admits, CurrentReq.endEntry, Entry.threshold, Downlink.free]
    congr 1
    exact propext (by omega)
  conv => lhs; rw [Dev.replaySettle, Dev.replayPump]
  simp only [hc, hs, ha, decide_eq_true_eq]
  split
  · exact Dev.replayPump_enough (by rw [Dev.finishRequest_rounds]; omega)
  · rfl

/-- The next queued request becomes current and is started, and the reader settles on. -/
theorem Dev.replaySettle_starting {d : Dev} {r : ReplayReq} {rest : List ReplayReq} (hc : d.replay.current = none)
    (hq : d.replay.queue = r :: rest) : d.replaySettle =
      (Dev.startRequest r { d with replay := { d.replay with queue := rest } }).replaySettle := by
  conv => lhs; rw [Dev.replaySettle, Dev.replayPump]
  simp only [hc, hq]
  exact Dev.replayPump_enough (Nat.le_trans (Dev.startRequest_rounds _ _) (by simp only [List.length_cons]; omega))

/-- Requests flagged cancelled, with none current: each becomes current, ends, and its entry is admitted, in their order. -/
theorem Dev.replaySettle_flagged (rest : List ReplayReq) : ∀ {d : Dev}, d.replay.current = none →
    d.replay.queue = (rest.map fun r => { r with cancelled := true }) →
    d.downlink.ctrl.length + rest.length ≤ 64 → d.replaySettle = { d with
      replay := { d.replay with queue := [] }
      downlink := { d.downlink with
        ctrl := d.downlink.ctrl ++ rest.map fun r => Entry.replayEnd .cancelled r.tag r.frame 0 } } := by
  induction rest with
  | nil =>
    intro d hc hq _
    have h0 : d.replaySettle = d := Dev.replayPump_stopped _ (by simp [ReplayReader.rounds, hc, hq])
    simp only [List.map_nil, List.append_nil] at hq ⊢
    rw [h0, ← hq]
  | cons r rest ih =>
    intro d hc hq hl
    simp only [List.length_cons] at hl
    rw [Dev.replaySettle_starting hc hq, Dev.replaySettle_ending (c := .endedAtStart { r with cancelled := true } .cancelled)
      (st := .cancelled) (by simp [Dev.startRequest, Dev.setCurrent]) rfl]
    have h0 : (Dev.startRequest { r with cancelled := true }
      { d with replay := { d.replay with queue := rest.map fun r => { r with cancelled := true } } }).downlink = d.downlink := by
      simp [Dev.startRequest, Dev.setCurrent]
    rw [h0, if_pos (by omega), ih (by simp [Dev.finishRequest, Dev.setCurrent, CurrentReq.endedAtStart])
      (by simp [Dev.finishRequest, Dev.setCurrent, CurrentReq.endedAtStart, Dev.enqueue, Dev.startRequest])
      (by simp [Dev.finishRequest, Dev.setCurrent, CurrentReq.endedAtStart, Dev.enqueue, Dev.startRequest]; omega)]
    simp [Dev.finishRequest, Dev.setCurrent, CurrentReq.endedAtStart, Dev.enqueue, Dev.startRequest, CurrentReq.endEntry, hc]

/-- Every request ended, with room for all their entries: the entries of `ReplayReader.ends`, and an empty reader
(R140, R141, R143). -/
theorem Dev.replaySettle_allEnded {d : Dev} {r : ReplayReader} (h : d.replay = r.allEnded)
    (hl : d.downlink.ctrl.length + r.ends.length ≤ 64) : d.replaySettle = { d with
      replay := { d.replay with queue := [], current := none }
      downlink := { d.downlink with ctrl := d.downlink.ctrl ++ r.ends } } := by
  cases hc : r.current with
  | none =>
    rw [Dev.replaySettle_flagged r.queue (by simp [h, ReplayReader.allEnded, hc]) (by simp [h, ReplayReader.allEnded])
      (by simpa [ReplayReader.ends, hc] using hl)]
    simp [h, ReplayReader.allEnded, ReplayReader.ends, hc]
  | some c =>
    simp only [ReplayReader.ends, hc, Option.toList_some, List.map_cons, List.map_nil, List.cons_append, List.nil_append,
      List.length_cons, List.length_map] at hl
    rw [Dev.replaySettle_ending (c := { c with stage := .ending c.stage.cancelled, marked := false })
      (st := c.stage.cancelled) (by simp [h, ReplayReader.allEnded, hc]) rfl, if_pos (by omega),
      Dev.replaySettle_flagged r.queue (by simp [Dev.finishRequest, Dev.setCurrent])
        (by simp [Dev.finishRequest, Dev.setCurrent, Dev.enqueue, h, ReplayReader.allEnded])
        (by simp [Dev.finishRequest, Dev.setCurrent, Dev.enqueue]; omega)]
    simp [Dev.finishRequest, Dev.setCurrent, Dev.enqueue, CurrentReq.endEntry, h, ReplayReader.allEnded,
      ReplayReader.ends, hc]

/-- A reader that has nothing to end and nothing to start is settled. -/
theorem Dev.replaySettle_stopped {d : Dev} (h : d.replay.rounds = 0) : d.replaySettle = d := Dev.replayPump_stopped _ h

/-- Dropping every line twice is dropping them once (R125). -/
theorem Fetcher.dropAll_dropAll (f : Fetcher) : f.dropAll.dropAll = f.dropAll := by
  obtain ⟨a, b, order, req⟩ := f
  cases ha : a.state <;> cases hb : b.state <;> cases hc : a.discard <;> cases hd : b.discard <;>
    by_cases ho : a.outstanding = 0 <;> by_cases hp : b.outstanding = 0 <;>
    simp [Fetcher.dropAll, Fetcher.dropBuf, Fetcher.buf, Fetcher.setBuf, LineBuf.vacant, *]

/-! ### Settling and the uplink -/

/-- The block with another uplink receiver. -/
def Dev.withUplink (u : Uplink) (d : Dev) : Dev := { d with uplink := u }

/-- The replay reader's look for lines neither reads nor moves the uplink. -/
theorem Dev.replayExamine_withUplink (u : Uplink) (d : Dev) :
    (d.withUplink u).replayExamine = d.replayExamine.withUplink u := by
  have h (d : Dev) : (d.withUplink u).replayBegin? = d.replayBegin?.map (Dev.withUplink u) := by
    simp only [Dev.replayBegin?, Dev.withUplink, Dev.plan?]
    split
    · split <;> simp [*, Dev.withUplink]
    · rfl
  unfold Dev.replayExamine
  rw [h]
  cases d.replayBegin? with
  | none => rfl
  | some e =>
    simp only [Option.map_some, h]
    cases e.replayBegin? <;> rfl

/-- Nor does the start of a request. -/
theorem Dev.startRequest_withUplink (u : Uplink) (q : ReplayReq) (d : Dev) :
    (d.withUplink u).startRequest q = (d.startRequest q).withUplink u := by
  unfold Dev.startRequest
  rw [show (d.withUplink u).ring = d.ring from rfl]
  split
  · rfl
  · split
    · rfl
    · split
      · rfl
      · rw [Dev.enterSending, Dev.enterSending, ← Dev.replayExamine_withUplink]
        rfl

/-- Nor does settling, so an order may leave its queue before or after its effects. -/
theorem Dev.replaySettle_withUplink (u : Uplink) (d : Dev) :
    (d.withUplink u).replaySettle = d.replaySettle.withUplink u := by
  have h (n : Nat) : ∀ d : Dev, (d.withUplink u).replayPump n = (d.replayPump n).withUplink u := by
    induction n with
    | zero => intro d; rfl
    | succ n ih =>
      intro d
      rw [Dev.replayPump, Dev.replayPump, show (d.withUplink u).replay = d.replay from rfl]
      cases d.replay.current with
      | none =>
        cases d.replay.queue with
        | nil => rfl
        | cons q qs =>
          simp only
          rw [← ih, ← Dev.startRequest_withUplink]
          rfl
      | some c =>
        simp only
        cases hs : c.stage with
        | waitingClose => rfl
        | sending => rfl
        | ending st =>
          simp only [show (d.withUplink u).admits (c.endEntry st) = d.admits (c.endEntry st) from rfl]
          split
          · rw [← ih]
            congr 1
            unfold Dev.finishRequest
            split <;> rfl
          · rfl
  exact h _ d

/-- Settling before or after the order leaves its queue, and then the answer, in the words of the claims. -/
theorem Dev.replaySettle_popOrder (kind : Byte) (tag : Tag) (st : Status) (d : Dev) :
    d.popOrder.replaySettle.respond kind tag st [] = d.replaySettle.answered kind tag st [] := by
  have h1 : d.popOrder.replaySettle = d.replaySettle.withUplink { d.uplink with orders := d.uplink.orders.tail } :=
    Dev.replaySettle_withUplink _ d
  have h2 : d.replaySettle.uplink = d.uplink :=
    congrArg (·.uplink) (Dev.replaySettle_withUplink d.uplink d)
  rw [h1, Dev.respond_eq, Dev.answered, h2]
  rfl

end Sys2Proof.Machine
end

