-- ==== Sys2Proof/Laws/State.lean ====
section
/-! SUPPORT. What each plain update writes. The Frames files say what the operations leave alone. -/

namespace Sys2Proof.Machine

@[simp] theorem Dev.setParked_mem (b : Bool) (d : Dev) : (d.setParked b).mem = { d.mem with parked := b } := rfl
@[simp] theorem Dev.setSteal_mem (n : Nat) (d : Dev) : (d.setSteal n).mem = { d.mem with steal := n } := rfl
@[simp] theorem Dev.holdPort_mem (b : Bool) (d : Dev) : (d.holdPort b).mem = { d.mem with portHeld := b } := rfl
@[simp] theorem Dev.issue_mem (o : Owner) (op : BusOp) (h : List HandleEntry) (d : Dev) :
    (d.issue o op h).mem = d.mem.issue o op h := rfl
@[simp] theorem Dev.dropRecord_mem (tag : Nat) (d : Dev) :
    (d.dropRecord tag).mem = { d.mem with inflight := d.mem.inflight.filter fun r => r.tag ≠ tag } := rfl
@[simp] theorem Dev.toHead_mem (ident : Nat) (reply : MemReply) (d : Dev) :
    (d.toHead ident reply).mem = { d.mem with headOut := some { ident := ident, reply := reply } } := rfl
@[simp] theorem Dev.count_counters (f : Counters → Counters) (d : Dev) : (d.count f).counters = f d.counters := rfl
@[simp] theorem Dev.acknowledge_report (v : Nat) (d : Dev) :
    (d.acknowledge v).report = { d.report with causes := d.report.causes.acknowledge v } := rfl
@[simp] theorem Dev.shadowBytes_plan (off : Nat) (bytes : List Byte) (d : Dev) :
    (d.shadowBytes off bytes).plan = { d.plan with shadow := Memory.writeIn 0 0x1000 d.plan.shadow off bytes } := rfl
@[simp] theorem Dev.liveBytes_plan (off : Nat) (bytes : List Byte) (d : Dev) :
    (d.liveBytes off bytes).plan =
    { d.plan with
      live := Memory.writeIn 0x1008 0x1010 (Memory.writeIn 0x1000 0x1004 d.plan.live off bytes) off bytes } := rfl
@[simp] theorem Dev.updSlot_ring (s : Nat) (f : Slot → Slot) (d : Dev) :
    (d.updSlot s f).ring = { d.ring with slots := d.ring.slots.modify s f } := rfl
@[simp] theorem Dev.setGate_ring (g : Gate) (d : Dev) : (d.setGate g).ring = { d.ring with gate := g } := rfl
@[simp] theorem Dev.updTiming_timing (f : Timing → Timing) (d : Dev) : (d.updTiming f).timing = f d.timing := rfl
@[simp] theorem Dev.tick_timing (d : Dev) : d.tick.timing = { d.timing with now := d.timing.now + 1 } := rfl
@[simp] theorem Dev.setCurrent_replay (c : Option CurrentReq) (d : Dev) :
    (d.setCurrent c).replay = { d.replay with current := c } := rfl
@[simp] theorem Dev.cancelQueued_replay (d : Dev) : d.cancelQueued.replay =
    { d.replay with queue := d.replay.queue.map fun q => { q with cancelled := true } } := rfl
@[simp] theorem Dev.updFetcher_live (f : Fetcher → Fetcher) (d : Dev) :
    (d.updFetcher .live f).live = { d.live with fetcher := f d.live.fetcher } := rfl
@[simp] theorem Dev.updFetcher_replay (f : Fetcher → Fetcher) (d : Dev) :
    (d.updFetcher .replay f).replay = { d.replay with fetcher := f d.replay.fetcher } := rfl
@[simp] theorem Dev.enqueue_downlink (e : Entry) (d : Dev) :
    (d.enqueue e).downlink = { d.downlink with ctrl := d.downlink.ctrl ++ [e] } := rfl
@[simp] theorem Dev.sendCell_downlink (k : CellKind) (bytes : List Byte) (d : Dev) :
    (d.sendCell k bytes).downlink = d.downlink.sent k bytes := rfl
@[simp] theorem Dev.updUplink_uplink (f : Uplink → Uplink) (d : Dev) : (d.updUplink f).uplink = f d.uplink := rfl
@[simp] theorem Dev.setExecutor_uplink (x : Executor) (d : Dev) :
    (d.setExecutor x).uplink = { d.uplink with executor := x } := rfl
@[simp] theorem Dev.popOrder_uplink (d : Dev) : d.popOrder.uplink = { d.uplink with orders := d.uplink.orders.tail } := rfl
@[simp] theorem Dev.setPage_remote (n : BitVec 10) (d : Dev) : (d.setPage n).remote = { d.remote with page := n } := rfl
@[simp] theorem Dev.setPointer_remote (a : Addr) (d : Dev) :
    (d.setPointer a).remote = { d.remote with pointer := a } := rfl
@[simp] theorem Dev.setEntry_watch (id : Nat) (x : Option WatchEntry) (d : Dev) :
    (d.setEntry id x).watch = { d.watch with table := d.watch.table.set id x } := rfl
@[simp] theorem Dev.discardSeed_watch (d : Dev) : d.discardSeed.watch = { d.watch with seeding := none } := rfl
@[simp] theorem Dev.drainExamine_feed (d : Dev) : d.drainExamine.feed = d.feed.examine := rfl

/-! ### Buffers of a fetcher -/

@[simp] theorem Fetcher.buf_setBuf (f : Fetcher) (i : BufId) (x : LineBuf) : (f.setBuf i x).buf i = x := by
  cases i <;> rfl
@[simp] theorem Fetcher.setBuf_setBuf (f : Fetcher) (i : BufId) (x y : LineBuf) :
    (f.setBuf i x).setBuf i y = f.setBuf i y := by cases i <;> rfl
@[simp] theorem Fetcher.setBuf_order (f : Fetcher) (i : BufId) (x : LineBuf) : (f.setBuf i x).order = f.order := by
  cases i <;> rfl
@[simp] theorem Fetcher.setBuf_req (f : Fetcher) (i : BufId) (x : LineBuf) : (f.setBuf i x).req = f.req := by
  cases i <;> rfl
@[simp] theorem Fetcher.setBuf_nonePresented (f : Fetcher) (i j : BufId) (x : LineBuf) :
    (f.setBuf i x).nonePresented j = f.nonePresented j := by cases i <;> rfl

end Sys2Proof.Machine
end

