-- ==== Sys2Proof/Tests/Slice0.lean ====
section
/-! SUPPORT. The model's own tests: ill-formed commands refused, the orders' bytes, the CRCs, one step of each family, and
for every statement with hypotheses a concrete case that meets them. Expected values come from the manual's tables and
worked sequences. -/

namespace Sys2Proof.Tests

open Sys2Proof.Machine

set_option Elab.async false

/-! ### Fixtures -/

/-- The block after reset with the first record written out of the way. -/
def quiet : Dev :=
  let d := State.reset.dev
  { d with report := { d.report with writing := none, halvesLeft := 0, presented := none } }

/-- A small plan: one DOWN strip of 16 lines, two tiles of 32 columns, the second mirrored; both have one lead row. -/
def planA : Plan :=
  { ringBase := 0x10000000, stride := 4096, slots := 5, speed := 2, lockWindow := 100, period := 1000000, advance := 1000
    width := 64, height := 16, bpp := 1, conceal := .repeatLine, order := .raster, source := .sensor
    rowUnit := 0, rowCount := 1, startAllowance := 500, retStart := 0x20000000, retEnd := 0x20001000
    strips := [{ first := 0, height := 16, up := false }]
    tiles := [
      { strip := 0, lead := 1, mirror := false, offset := 0, pitch := 64, cols := 32, trimLeft := 0, trimRight := 0, x := 0 },
      { strip := 0, lead := 1, mirror := true, offset := 2048, pitch := 64, cols := 32, trimLeft := 0, trimRight := 0
        x := 32 }] }

/-- The staging area's bytes of that plan (section 12.5). -/
def shadowA : Memory :=
  [(0x3, 16), (0x9, 16), (0xc, 5), (0xd, 2), (0xe, 100), (0x10, 64), (0x11, 66), (0x12, 15), (0x14, 232), (0x15, 3),
   (0x18, 64), (0x1a, 16), (0x1c, 1), (0x21, 1), (0x24, 244), (0x25, 1), (0x2b, 32), (0x31, 16), (0x33, 32), (0x38, 1),
   (0x39, 2), (0x42, 16), (0x81, 1), (0x88, 64), (0x8c, 32), (0xa1, 1), (0xa2, 1), (0xa5, 8), (0xa8, 64), (0xac, 32),
   (0xb2, 32)]

/-- The block with that plan in its shadow. -/
def staged : Dev := { quiet with plan := { quiet.plan with shadow := shadowA } }

/-- The plan at work, with its return ring in force. -/
def workA : WorkingPlan := ⟨planA, 1⟩

/-- The block with that plan at work. -/
def planned : Dev :=
  { quiet with
    plan := { quiet.plan with working := some workA }
    feed := { quiet.feed with start := 0x20000000, stop := 0x20001000, producer := 0x20000000, consumer := 0x20000000 } }

/-- A context of both tiles RUNNING, bound to a slot. -/
def contextOf (binding slot : Nat) : Context :=
  { binding := binding, slot := slot, frameStart := 0, fronts := [.start, .start] }

/-- A slot in a state, with a frame number and both tiles PENDING. -/
def slotOf (state : SlotState) (frame : FrameNo) : Slot :=
  { Slot.vacant with state := state, frame := frame, outcomes := [.pending, .pending], damage := [[], []] }

/-- The block with frame 5 FILLING in slot 0 and frame 6 CLOSED in slot 1. -/
def filling : Dev :=
  { planned with
    ring := { planned.ring with
      slots := [slotOf .filling 5, slotOf .closed 6] ++ List.replicate 30 .vacant, age := [1, 0], frameCounter := 7 }
    tracker := { planned.tracker with ctx0 := some (contextOf 0 0), order := [.c0], nextBinding := 1 } }

/-- A block whose control queue holds a number of entries. -/
def queued (n : Nat) (d : Dev) : Dev :=
  { d with downlink := { d.downlink with ctrl := List.replicate n (.echo 0 0) } }

/-- A block at a head time. -/
def timed (t : HeadTime) (d : Dev) : Dev := { d with timing := { d.timing with now := t } }

/-- A block with one request in flight. -/
def waits (tag : Nat) (owner : Owner) (isWrite : Bool) (len : Nat) (d : Dev) : Dev :=
  { d with mem := { d.mem with
      inflight := [{ tag := tag, owner := owner, isWrite := isWrite, len := len, handle := [] }], nextTag := tag + 1 } }

/-- The block after a command, when the command answers a next state. -/
def after (c : Instr) (d : Dev) : Option Dev :=
  match exec c ⟨d, []⟩ with
  | .next t => some t.dev
  | .fault _ => none
  | .refused _ => none

/-- A command stops with a fault. -/
def faults (c : Instr) (d : Dev) : Option Fault :=
  match exec c ⟨d, []⟩ with
  | .next _ => none
  | .fault f => some f
  | .refused _ => none

/-! ### WellFormed: each check refuses an ill-formed command -/

theorem test_wf_empty_read : (Instr.headSideRequest 0 (.read 0 0)).wf = false := by decide +kernel
theorem test_wf_long_read : (Instr.headSideRequest 0 (.read 0 257)).wf = false := by decide +kernel
theorem test_wf_empty_write : (Instr.headSideRequest 0 (.write 0 [])).wf = false := by decide +kernel
theorem test_wf_long_write : (Instr.headSideRequest 0 (.write 0 (List.replicate 257 0))).wf = false := by decide +kernel
theorem test_wf_longest_write : (Instr.headSideRequest 0 (.write 0 (List.replicate 256 0))).wf = true := by decide +kernel
theorem test_wf_empty_staging : (Instr.stagingWrite 0 []).wf = false := by decide +kernel
theorem test_wf_long_staging : (Instr.stagingWrite 0 (List.replicate 257 0)).wf = false := by decide +kernel
theorem test_wf_staging_beyond : (Instr.stagingWrite 0xFFFF [1, 2]).wf = false := by decide +kernel
theorem test_wf_replies_empty : [Instr.memoryResponse 0 (.data []), .reportWriteDone 0 (.data []),
    .watchSeedDone 0 (.data []), .maskWriteReadDone 0 (.data []), .remoteAccessDone 0 (.data []),
    .lineFetchResponse 0 (.data []), .drainWriteDone 0 (.data [])].all (fun c => !c.wf) = true := by decide +kernel
theorem test_wf_reply_long : (Instr.memoryResponse 0 (.data (List.replicate 257 0))).wf = false := by decide +kernel
theorem test_wf_third_context : (Instr.tileDeadlineExpiry 2 0).wf = false := by decide +kernel
theorem test_wf_ninth_tile : (Instr.tileDeadlineExpiry 0 8).wf = false := by decide +kernel
theorem test_wf_short_frame : (Instr.uplinkFrame (List.replicate 255 0)).wf = false := by decide +kernel
theorem test_wf_no_return : (Instr.returnData []).wf = false := by decide +kernel
theorem test_wf_long_return : (Instr.returnData (List.replicate 241 0)).wf = false := by decide +kernel
theorem test_wf_empty_order_write : (Instr.write 0 0 []).wf = false := by decide +kernel
theorem test_wf_long_order_write : (Instr.write 0 0 (List.replicate 65 0)).wf = false := by decide +kernel
theorem test_wf_empty_write_next : (Instr.writeNext 0 []).wf = false := by decide +kernel
theorem test_wf_long_write_next : (Instr.writeNext 0 (List.replicate 65 0)).wf = false := by decide +kernel
theorem test_wf_mask_lengths : (Instr.maskWrite 0 0 [1, 2] [3]).wf = false := by decide +kernel
theorem test_wf_mask_empty : (Instr.maskWrite 0 0 [] []).wf = false := by decide +kernel
theorem test_wf_mask_long : (Instr.maskWrite 0 0 (List.replicate 9 0) (List.replicate 9 0)).wf = false := by decide +kernel
theorem test_wf_known_action : (Instr.gateUnknownAction 0 3).wf = false := by decide +kernel

/-! ### The orders' bytes, written out from the tables of R197 and R198 -/

theorem test_decode_gate_run : decodeOrder ⟨0x10, [0x34, 0x12, 0, 0xFF, 0xFF]⟩ = some (.gateRun 0x1234) := by decide +kernel
theorem test_decode_gate_mark : decodeOrder ⟨0x10, [0x34, 0x12, 3, 0x02, 0x01]⟩ = some (.gateMark 0x1234 258) := by decide +kernel
theorem test_decode_gate_unknown : decodeOrder ⟨0x10, [1, 0, 4, 0, 0]⟩ = some (.gateUnknownAction 1 4) := by decide +kernel
theorem test_decode_replay : decodeOrder ⟨0x11, [1, 0, 3, 2, 1, 16, 0, 32, 0, 0xFF]⟩ =
    some (.replay 1 0x010203 16 32 true) := by decide +kernel
theorem test_decode_cancel : decodeOrder ⟨0x12, [1, 0, 0xFE]⟩ = some (.cancelCurrent 1) := by decide +kernel
theorem test_decode_cancel_all : decodeOrder ⟨0x12, [1, 0, 1]⟩ = some (.cancelAll 1) := by decide +kernel
theorem test_decode_hold : decodeOrder ⟨0x13, [1, 0, 3, 2, 1]⟩ = some (.hold 1 0x010203) := by decide +kernel
theorem test_decode_release : decodeOrder ⟨0x14, [1, 0, 3, 2, 1, 2]⟩ = some (.release 1 0x010203) := by decide +kernel
theorem test_decode_release_all : decodeOrder ⟨0x14, [1, 0, 9, 9, 9, 1]⟩ = some (.releaseAll 1) := by decide +kernel
theorem test_decode_watch_set : decodeOrder ⟨0x20, [1, 0, 7, 8, 0x10, 0, 0xC0, 0, 8, 2]⟩ =
    some (.watchSet 1 7 0xC0001008 8 2) := by decide +kernel
theorem test_decode_page : decodeOrder ⟨0x30, [1, 0, 0xFF, 3]⟩ = some (.page 1 1023) := by decide +kernel
theorem test_decode_point : decodeOrder ⟨0x31, [1, 0, 0, 0, 0, 0, 4]⟩ = some (.point 1 0x400000000) := by decide +kernel
theorem test_decode_read : decodeOrder ⟨0x32, [1, 0, 3, 2, 1, 8]⟩ = some (.read 1 0x010203 8) := by decide +kernel
theorem test_decode_write : decodeOrder ⟨0x33, [1, 0, 3, 2, 1, 0xAA, 0xBB]⟩ =
    some (.write 1 0x010203 [0xAA, 0xBB]) := by decide +kernel
theorem test_decode_mask_write : decodeOrder ⟨0x36, [1, 0, 3, 2, 1, 0xAA, 0xBB, 0xF0, 0x0F]⟩ =
    some (.maskWrite 1 0x010203 [0xAA, 0xBB] [0xF0, 0x0F]) := by decide +kernel
theorem test_decode_mask_even : decodeOrder ⟨0x36, [1, 0, 3, 2, 1, 0xAA, 0xBB, 0xF0]⟩ = none := by decide +kernel
theorem test_decode_wrong_length : decodeOrder ⟨0x13, [1, 0, 3, 2]⟩ = none := by decide +kernel
theorem test_decode_no_order : decodeOrder ⟨0x16, [1, 0]⟩ = none := by decide +kernel
theorem test_table_word_none : decodeTableWord 16 0x1234 = none := by decide +kernel

/-! ### The CRCs over 0x31 … 0x39 (section 12.7), and an entry -/

theorem test_crc32 : crc32 [0x31, 0x32, 0x33, 0x34, 0x35, 0x36, 0x37, 0x38, 0x39] = 0xFC891918 := by decide +kernel
theorem test_crc16 : crc16 [0x31, 0x32, 0x33, 0x34, 0x35, 0x36, 0x37, 0x38, 0x39] = 0x29B1 := by decide +kernel
theorem test_entry_mark_bytes : (Entry.response 0x10 0x1234 .done [3, 2, 1, 1]).bytes =
    [1, 0x10, 0x34, 0x12, 0, 4, 3, 2, 1, 1, 0, 0, 0, 0, 0, 0] := by decide +kernel

/-! ### Geometry: the worked case of section 3.6 -/

/-- The plan of section 3.6. -/
def planS : Plan :=
  { planA with
    ringBase := 0x100000000, stride := 0x02000000, slots := 8, width := 3840, height := 2160, bpp := 2
    strips := [{ first := 0, height := 1080, up := true }, { first := 1080, height := 1080, up := false }]
    tiles := [(0, 0, false, 0), (0, 1920, true, 0x500000), (1, 0, false, 0xA00000), (1, 1920, true, 0xF00000)].map
      fun (s, x, m, o) => { strip := s, lead := 4, mirror := m, offset := o, pitch := 3904, cols := 1936, trimLeft := 8
                            trimRight := 8, x := x } }

theorem test_locate : planS.locate 0x106509948 = some ⟨3, 1, 10, 200⟩ := by decide +kernel
theorem test_pixel_address : planS.pixelAddr 3 (planS.tileAt 1) 3747 1073 = 0x106509948 := by decide +kernel
theorem test_row_end_and_padding : planS.trackerPieces 0x100A05B18 256 =
    [⟨0, 2, 5, 3800, 3872⟩, ⟨0, 2, 6, 0, 152⟩] := by decide +kernel
theorem test_runs_of_a_line : (planS.runs 3 1073 0 3840).map (·.start) = [0x106009890, 0x106509890] := by decide +kernel
theorem test_run_of_some_columns : (planS.runs 3 1073 3700 3760).map (fun r => (r.start, r.xa, r.xb)) =
    [(0x106509880 + 176, 3700, 3760)] := by decide +kernel
theorem test_requests_of_a_run :
    ((planS.runs 3 1073 0 1920).flatMap (Run.fetch 2)).map (·.len) = 112 :: (List.replicate 14 256 ++ [144]) := by
  decide +kernel

/-! ### Damage lists: the list of section 4.7 that overflows -/

/-- The ranges [10, 10], [20, 20] … [80, 80]. -/
def eightRanges : List RowRange := (List.range 8).map fun i => ⟨10 * i + 10, 10 * i + 10, false⟩

/-- The five additions of the table, one after another, with the bounds of each range. -/
def additionsTo (list : List RowRange) : List (Nat × Nat) → List (Nat × Nat)
  | [] => list.map fun r => (r.first, r.last)
  | (f, l) :: rest => additionsTo (addRange 1084 f l list) rest

theorem test_damage_overflow : additionsTo eightRanges [(90, 90)] =
    [(10, 10), (20, 20), (30, 30), (40, 40), (50, 50), (60, 60), (70, 1083)] := by decide +kernel
theorem test_damage_sequence : additionsTo eightRanges [(90, 90), (45, 45), (41, 44), (65, 66), (25, 25)] =
    [(10, 10), (20, 20), (25, 1083)] := by decide +kernel

/-! ### One step of each command -/

theorem test_reset_assert : (after .resetAssert (queued 1 (timed 9 planned))).map (fun d => (d.timing.now, d.attentionLine)) =
    some (0, false) := by decide +kernel
/-- PLAN-BASE 4 with 4 GiB is clamped and sets STRAP (R15). -/
theorem test_device_reset_clamps : (after (.deviceReset ⟨4, .gib4, .setting2, true⟩) planned).map
    (fun d => (d.mem.planBase, d.report.causes.strap, d.plan.working, d.downlink.rate)) =
    some (0, true, none, .setting2) := by decide +kernel
theorem test_device_reset_keeps : (after (.deviceReset ⟨3, .gib4, .setting0, true⟩) planned).map
    (fun d => (d.mem.planBase, d.report.causes.strap, d.report.recordNumber)) = some (3, false, 1) := by decide +kernel
theorem test_head_side_request : (after (.headSideRequest 7 (.read 64 8)) quiet).map (·.mem.transit) =
    some (some ⟨7, .read 64 8⟩) := by decide +kernel

/-- The block of section 1.5's first sequence: PLAN-BASE 3, watch entry 2 on 8 bytes at 0xC000_1008. -/
def sequence1 : Dev :=
  let e : WatchEntry := ⟨0xC0001008, 8, .every, List.replicate 8 0, List.replicate 8 0⟩
  { quiet with
    mem := { quiet.mem with planBase := 3, memSize := .gib8 }
    watch := { quiet.watch with table := quiet.watch.table.set 2 (some e) } }

theorem test_pieces_across_live_words :
    (sequence1.pieces 0xC0000FC0 (List.replicate 256 0)).map (fun x => (x.1, x.2.length)) =
    [(0xC0000FC0, 64), (0xC0001000, 8), (0xC0001008, 8), (0xC0001010, 176)] := by decide +kernel

/-- A passing read and a remote read wait, with the steal counter as given. -/
def contested (steal : Nat) : Dev :=
  { quiet with
    mem := { quiet.mem with transit := some ⟨7, .read 64 8⟩, steal := steal }
    remote := { quiet.remote with req := some ⟨.read, .read 128 4⟩ } }

theorem test_grant_below_sixteen : (after .grantDecision (contested 15)).map (fun d => (d.mem.steal, d.mem.memOut)) =
    some (16, some ⟨0, .read 64 8⟩) := by decide +kernel
theorem test_grant_at_sixteen : (after .grantDecision (contested 16)).map (fun d => (d.mem.steal, d.mem.memOut)) =
    some (0, some ⟨0, .read 128 4⟩) := by decide +kernel
theorem test_memory_response : (after (.memoryResponse 3 (.data [1, 2])) (waits 3 (.passing 9) false 2 quiet)).map
    (fun d => (d.mem.headOut, d.mem.inflight)) = some (some ⟨9, .data [1, 2]⟩, []) := by decide +kernel
theorem test_memory_response_malformed : faults (.memoryResponse 3 (.data [1])) (waits 3 (.passing 9) false 2 quiet) =
    some .malformedReply := by decide +kernel
theorem test_parked_assert : (after .parkedAssert quiet).map (·.mem.parked) = some true := by decide +kernel
theorem test_parked_withdraw : ((after .parkedAssert quiet).bind (after .parkedWithdraw)).map (·.mem.parked) =
    some false := by decide +kernel
theorem test_staging_write : (after (.stagingWrite 0x10 [1, 2]) quiet).map (·.plan.shadow) =
    some [(0x10, 1), (0x11, 2)] := by decide +kernel
theorem test_commit_accepted : (after (.commit 0xABCD0007) staged).map
    (fun d => (d.plan.state, d.plan.working.map (·.seq), d.timing.nextAnchor)) =
    some (.active, some 7, some 1000000) := by decide +kernel
theorem test_commit_rejected : (after (.commit 7) quiet).map (fun d => (d.plan.last, d.report.causes.commit)) =
    some (.rejected 7 .ring, true) := by decide +kernel
theorem test_attention_ack : (after (.attentionAck 2) { quiet with report := { quiet.report with
    causes := ⟨false, true, true, false, false⟩ } }).map (·.report.causes) =
    some ⟨false, false, true, false, false⟩ := by decide +kernel
theorem test_return_consumed_refused : (after (.returnConsumed 0) quiet).map (·.counters.refusedConsumers) =
    some 1 := by decide +kernel
theorem test_report_timer : (after .reportTimer (timed 2097152 quiet)).map
    (fun d => (d.report.recordNumber, d.report.timerDue)) = some (2, 4194304) := by decide +kernel
theorem test_report_write_error : (after (.reportWriteDone 3 .error) (waits 3 .report true 256 quiet)).map
    (fun d => (d.report.causes.fault, d.counters.memoryErrors)) = some (true, 1) := by decide +kernel

/-- Offsets of the group for T = 2,477,475 and S = 4 (section 6.4). -/
theorem test_capture_offsets : [1, 2, 3].map (Plan.captureOffset { planA with period := 2477475, speed := 4 }) =
    [619369, 1238738, 1858107] := by decide +kernel

/-- The planned block with its next anchor at head time 1,000. -/
def anchored : Dev := { planned with timing := { planned.timing with now := 1000, nextAnchor := some 1000 } }

theorem test_anchor_event : (after .anchorEvent anchored).map
    (fun d => (d.timing.nextAnchor, d.timing.inGroup, (d.ring.slot 0).state, d.live.active)) =
    some (some 1001000, [⟨501000, 1, 0⟩], .filling, some 0) := by decide +kernel

/-- The filling block with an in-group capture due. -/
def capturing : Dev :=
  { filling with timing := { filling.timing with now := 400, inGroup := [⟨400, 1, 9⟩] } }

theorem test_capture : (after .capture capturing).map
    (fun d => ((d.ring.slot 2).frame, d.ring.slotLines, d.ring.phaseLines, d.ring.frameStartEnd)) =
    some (7, 2, 1, some 548) := by decide +kernel
theorem test_frame_start_end : ((after .capture capturing).bind fun d => after .frameStartEnd (timed 548 d)).map
    (fun d => (d.ring.frameStartHigh, d.ring.slotLines)) = some (false, 2) := by decide +kernel
theorem test_tile_deadline : (after (.tileDeadlineExpiry 0 1) (timed 500 filling)).map
    (fun d => ((d.ring.slot 0).damage, (d.ring.slot 0).state)) =
    some ([[], [⟨0, 16, false⟩]], .filling) := by decide +kernel
theorem test_echo_timer : (after .echoTimer (timed 2097152 quiet)).map (fun d => (d.downlink.ctrl, d.timing.echoOut)) =
    some ([.echo 1 0], true) := by decide +kernel
theorem test_head_status_timer : (after .headStatusTimer (timed 2097152 quiet)).map (·.downlink.ctrl) =
    some [.headStatus .timer .free 0 0 2097152 0 0 false 0] := by decide +kernel

/-- LOCKED, with a loss deadline at head time 10. -/
def locked : Dev :=
  { quiet with timing := { quiet.timing with genlock := .locked, lockRun := 3, lossDeadline := some 10, now := 10 } }

theorem test_reference_loss : (after .referenceLossDeadline locked).map (fun d => (d.timing.genlock, d.report.causes.genlock)) =
    some (.free, true) := by decide +kernel

/-- The block of section 6.6's second sequence, before its first reference. -/
def acquiring : Dev :=
  { quiet with
    plan := { quiet.plan with working := some ⟨{ planA with period := 2475000, advance := 12000, lockWindow := 1000 }, 1⟩ }
    timing := { quiet.timing with now := 1002970, delay := 4430, delayValid := true, nextAnchor := some 3000000
                                  inGroup := [⟨1762500, 1, 0⟩] } }

theorem test_reference : (after (.reference 1000 1000000) acquiring).map
    (fun d => (d.timing.nextAnchor, d.timing.phaseError, d.timing.genlock, d.timing.nextBase, d.counters.phaseSteps)) =
    some (some 3458570, 458570, .locking, 1001, 1) := by decide +kernel

/-- An echo with sequence 1 is outstanding; D is valid at a value. -/
def echoing (delay run : Nat) : Dev :=
  { quiet with timing := { quiet.timing with echoSeq := 1, echoOut := true, delay := delay, delayValid := true
                                             outlierRun := run } }

/-- The elapsed time across the wrap of section 6.2: a sample of 4,500, which moves D from 4,420 to 4,430. -/
theorem test_echo_return : (after (.echoReturn 1 4294960000 1000 2704) (echoing 4420 0)).map
    (fun d => (d.timing.delay, d.timing.echoOut)) = some (4430, false) := by decide +kernel
theorem test_echo_reseed : (after (.echoReturn 1 0 0 12004) (echoing 4431 3)).map
    (fun d => (d.timing.delay, d.timing.outlierRun, d.counters.echoOutliers)) = some (6002, 0, 1) := by decide +kernel
theorem test_uplink_frame_start : (after .uplinkFrameStart (timed 100 quiet)).map
    (fun d => (d.uplink.frameStart, d.uplink.missingDue)) = some (some 100, some 6040) := by decide +kernel

/-- An uplink receiver in LOCKED that gathers a frame begun at head time 50. -/
def gathering (orders : List RawOrder) : Dev :=
  { quiet with uplink := { quiet.uplink with frameStart := some 50, locked := true, lastSeq := some 0x0A10
                                             orders := orders } }

/-- The header and orders of a frame of sequence 0x0A11 with HOLD, tag 22, frame 0x010203. -/
def holdFrame : List Byte := [0x11, 0x0A, 0, 0, 0x13, 5, 22, 0, 3, 2, 1, 0]

theorem test_good_frame : ((gathering []).goodFrame 50 holdFrame).uplink.orders = [⟨0x13, [22, 0, 3, 2, 1]⟩] := by
  decide +kernel
theorem test_misplaced_reference : ((gathering []).goodFrame 50
    ([0x11, 0x0A, 0, 0, 0x7F, 1, 9, 1, 4, 0, 0, 0, 0, 0])).counters.misplacedReferences = 1 := by decide +kernel
theorem test_uplink_frame_short : (after (.uplinkFrame [1, 2]) (gathering [])).map (·.uplink.frameStart) =
    some (some 50) := by decide +kernel
theorem test_short_frame_is_bad : (after .uplinkFrameStart (gathering [])).map
    (fun d => (d.uplink.badRun, d.counters.badFrames)) = some (1, 1) := by decide +kernel
theorem test_missing_frame : (after .missingFrameExpiry { quiet with uplink := { quiet.uplink with
    locked := true, badRun := 15, missingDue := some 0 } }).map
    (fun d => (d.uplink.locked, d.report.causes.link, d.uplink.missingDue)) = some (false, true, some 5940) := by
  decide +kernel
theorem test_credit_saturates : (after (.credit 255) { quiet with replay := { quiet.replay with credit := 1000 } }).map
    (·.replay.credit) = some 1023 := by decide +kernel
theorem test_return_data_drains : (after (.returnData [1, 2, 3]) planned).map (·.feed.drain) =
    some (.presented 0x20000000 3) := by decide +kernel
theorem test_gate_step_busy : (after (.gateStep 5) { quiet with ring := { quiet.ring with gate := .stepping } }).map
    (fun d => (d.ring.gate, d.downlink.ctrl)) = some (.stepping, [.response 0x10 5 .busy []]) := by decide +kernel
theorem test_gate_run : (after (.gateRun 5) { quiet with ring := { quiet.ring with gate := .countdown 3 } }).map
    (·.ring.gate) = some .running := by decide +kernel
theorem test_gate_pause : (after (.gatePause 5) quiet).map (·.ring.gate) = some .paused := by decide +kernel
theorem test_gate_mark : (after (.gateMark 5 2) { quiet with ring := { quiet.ring with lastStarted := some 0x010203 } }).map
    (fun d => (d.ring.gate, d.downlink.ctrl)) =
    some (.countdown 2, [.response 0x10 5 .done [3, 2, 1, 1]]) := by decide +kernel
theorem test_gate_unknown : (after (.gateUnknownAction 5 9) quiet).map (·.downlink.ctrl) =
    some [.response 0x10 5 .invalid []] := by decide +kernel
theorem test_replay_gone : (after (.replay 5 99 0 0 false) filling).map (·.downlink.ctrl) =
    some [.replayEnd .gone 5 99 0, .response 0x11 5 .done []] := by decide +kernel
theorem test_replay_sends : (after (.replay 5 6 2 0 false) filling).map
    (fun d => ((d.ring.slot 1).replay, d.replay.fetcher.bufA.state, d.replay.current.map (·.nextLine))) =
    some (true, .fetching, some 3) := by decide +kernel
theorem test_cancel_current : ((after (.replay 5 6 2 0 false) filling).bind (after (.cancelCurrent 6))).map
    (fun d => ((d.ring.slot 1).replay, d.replay.current, d.downlink.ctrl.getLast?)) =
    some (false, none, some (.response 0x12 6 .done [])) := by decide +kernel
theorem test_cancel_all : (after (.cancelAll 6) quiet).map (·.downlink.ctrl) = some [.response 0x12 6 .done []] := by
  decide +kernel
theorem test_hold : (after (.hold 5 6) filling).map (fun d => ((d.ring.slot 1).held, d.ring.holdCount)) =
    some (true, 1) := by decide +kernel
theorem test_release_gone : (after (.release 5 9) filling).map (·.downlink.ctrl) = some [.response 0x14 5 .gone []] := by
  decide +kernel
theorem test_release_all : ((after (.hold 5 6) filling).bind (after (.releaseAll 6))).map
    (fun d => ((d.ring.slot 1).held, d.ring.holdCount)) = some (false, 0) := by decide +kernel
theorem test_clear : (after (.clear 5) filling).map (fun d => (d.ring.slots, d.ring.age, d.tracker.ctx0)) =
    some (List.replicate 32 .vacant, [], none) := by decide +kernel
theorem test_clear_keeps_held : ((after (.hold 5 5) filling).bind (after (.clear 6))).map
    (fun d => ((d.ring.slot 0).state, (d.ring.slot 0).damage, d.ring.age)) =
    some (.closed, [[⟨0, 16, false⟩], [⟨0, 16, false⟩]], [0]) := by decide +kernel

/-- The block with REMOTE-EN high and 2 GiB, at page 127 (section 10.6). -/
def reachable : Dev := { quiet with remote := { quiet.remote with enabled := true, page := 127 } }

theorem test_read_at_the_edge : (after (.read 5 0xFFFFF8 8) reachable).map (·.remote.req) =
    some (some ⟨.read, .read 0x7FFFFFF8 8⟩) := by decide +kernel
theorem test_read_beyond : (after (.read 5 0xFFFFFC 8) reachable).map (·.downlink.ctrl) =
    some [.response 0x32 5 .range []] := by decide +kernel
theorem test_read_disabled : (after (.readNext 5 9) quiet).map (·.downlink.ctrl) =
    some [.response 0x34 5 .disabled []] := by decide +kernel
theorem test_read_next_count : (after (.readNext 5 9) reachable).map (·.downlink.ctrl) =
    some [.response 0x34 5 .invalid []] := by decide +kernel
theorem test_write : (after (.write 5 1 [0xAA]) reachable).map (·.remote.req) =
    some (some ⟨.write, .write 0x7F000001 [0xAA]⟩) := by decide +kernel
theorem test_write_next : (after (.writeNext 5 [0xAA]) reachable).map (·.remote.req) =
    some (some ⟨.write, .write 0 [0xAA]⟩) := by decide +kernel
theorem test_mask_write : (after (.maskWrite 5 0 [0xAA] [0xF0]) reachable).map (·.remote.req) =
    some (some ⟨.maskRead, .read 0x7F000000 1⟩) := by decide +kernel
theorem test_mask_write_read : ((after (.maskWrite 5 0 [0xAA] [0xF0]) reachable).bind fun d =>
    after (.maskWriteReadDone 3 (.data [0x55])) (waits 3 (.remote .maskRead) false 1 d)).map (·.remote.req) =
    some (some ⟨.maskWrite, .write 0x7F000000 [0xA5]⟩) := by decide +kernel
theorem test_read_next_advances : ((after (.readNext 5 2) reachable).bind fun d =>
    after (.remoteAccessDone 3 (.data [1, 2])) (waits 3 (.remote .read) false 2 d)).map
    (fun d => (d.remote.pointer, d.downlink.ctrl)) = some (2, [.response 0x34 5 .done [1, 2]]) := by decide +kernel
theorem test_page_refused : (after (.page 5 1024) reachable).map (fun d => (d.remote.page, d.downlink.ctrl)) =
    some (127, [.response 0x30 5 .invalid []]) := by decide +kernel
theorem test_point_refused : (after (.point 5 0x80000000) reachable).map (fun d => (d.remote.pointer, d.downlink.ctrl)) =
    some (0, [.response 0x31 5 .range []]) := by decide +kernel
theorem test_watch_set : (after (.watchSet 5 3 64 2 1) reachable).map (·.remote.req) =
    some (some ⟨.seed, .read 64 2⟩) := by decide +kernel

/-- A seeding record of two bytes in CHANGE mode, one of them written meanwhile. -/
def seeding : Dev :=
  waits 3 (.remote .seed) false 2 { reachable with
    uplink := { reachable.uplink with executor := .executing 0x20 5 (.watchSet 3 64 2 .change) }
    watch := { reachable.watch with seeding := some ⟨3, 64, 2, .change, [none, some 9], 1, some 70⟩ } }

theorem test_watch_seed_done : (after (.watchSeedDone 3 (.data [1, 2])) seeding).map
    (fun d => (d.watch.entry 3, d.downlink.ctrl)) =
    some (some ⟨64, 2, .change, [1, 9], [1, 9]⟩, [.watch 3 [1, 9] 70 1, .response 0x20 5 .done []]) := by decide +kernel
theorem test_watch_clear : (after (.watchClear 5 2) sequence1).map (·.watch.table) = some (List.replicate 8 none) := by
  decide +kernel

/-- A held RESPONSE, and then a free queue. -/
theorem test_response_offer : (after .responseOffer { quiet with uplink := { quiet.uplink with
    executor := .responding (.response 0x10 5 .done []) } }).map (fun d => (d.uplink.executor, d.downlink.ctrl)) =
    some (.idle, [.response 0x10 5 .done []]) := by decide +kernel

/-- A replay request of frame 6 in a stage. -/
def replayingAt (stage : Stage) (paced : Bool) : Dev :=
  let c : CurrentReq := ⟨⟨5, 6, 0, 0, paced, false⟩, stage, 1, true, 0, 15, 4⟩
  { filling with replay := { filling.replay with current := some c } }

theorem test_replay_end_offer : (after .replayEndOffer (replayingAt (.ending .done) false)).map
    (fun d => (d.replay.current, d.downlink.ctrl)) = some (none, [.replayEnd .done 5 6 4]) := by decide +kernel
theorem test_replay_fetch_waits : (after .replayFetchBegin (replayingAt .sending true)).map (·.replay.fetcher.bufA.state) =
    some .empty := by decide +kernel

/-- Frame 6 is the live reader's active frame, under TEST. -/
def testSource : Dev :=
  { filling with
    plan := { filling.plan with working := some ⟨{ planA with source := .test }, 1⟩ }
    live := { filling.live with active := some 1, rasterPtr := 15, handed := 15 } }

theorem test_live_fetch_test_source : (after .liveFetchBegin testSource).map
    (fun d => (d.live.fetcher.bufA.state, d.live.fetcher.bufA.last, d.live.fetcher.bufA.data.getLast?)) =
    some (.ready, true, some 84) := by decide +kernel

/-- A one-request fetch of four bytes at mirrored columns 0 … 3 in buffer A. -/
def fetching : Dev :=
  let q : FetchReq := ⟨0x10000040, 4, 0, 0, 4, true, 1⟩
  let x : LineBuf := { LineBuf.vacant with state := .fetching, slot := 1, outstanding := 1, data := [0, 0, 0, 0] }
  waits 3 (.fetch .live .a q) false 4 { filling with
    live := { filling.live with fetcher := { filling.live.fetcher with bufA := x, order := [.a] } } }

theorem test_line_fetch_mirrored : (after (.lineFetchResponse 3 (.data [1, 2, 3, 4])) fetching).map
    (fun d => (d.live.fetcher.bufA.state, d.live.fetcher.bufA.data)) = some (.ready, [4, 3, 2, 1]) := by decide +kernel
theorem test_line_fetch_error : (after (.lineFetchResponse 3 .error) fetching).map
    (fun d => (d.live.fetcher.bufA.concealed, d.live.fetcher.bufA.data, d.counters.memoryErrors)) =
    some (true, [0, 0, 0, 0], 1) := by decide +kernel
theorem test_fill_cell : (after .cellBoundary quiet).map
    (fun d => (d.downlink.cellSeq, d.downlink.nextBoundary, d.downlink.sinceControl)) = some (1, 594, 1) := by
  decide +kernel
theorem test_control_cell_at_sixteen : (queued 1 { quiet with downlink :=
    { quiet.downlink with sinceControl := 16 } }).cellKind = .control := by decide +kernel

/-- A ring of 4,096 bytes with P 10 bytes before its end and staged bytes. -/
def nearEnd (drain : Drain) : Dev :=
  { planned with feed := { planned.feed with producer := 0x20000FF6, consumer := 0x20000FF6, fifo := List.replicate 20 7
                                             drain := drain } }

theorem test_drain_begin : (after .drainWriteBegin (nearEnd .none)).map (·.feed.drain) =
    some (.presented 0x20000FF6 10) := by decide +kernel
theorem test_drain_done : (after (.drainWriteDone 3 .done) (waits 3 .feed true 10 (nearEnd (.granted 10 false)))).map
    (fun d => (d.feed.producer, d.report.producer, d.feed.drain)) =
    some (0x20000000, some 0x20000000, .presented 0x20000000 20) := by decide +kernel

/-! ### Witnesses: for every statement with hypotheses, a state and operands that meet them -/

theorem witness_ExecKeepsQueue : exec .grantDecision ⟨quiet, [.capture]⟩ = .next ⟨quiet, [.capture]⟩ := rfl

theorem witness_IdleStepIsTheClock_reset : ({ quiet with resetAsserted := true } : Dev).resetAsserted = true := rfl
/-- The block with its first cell boundary sent. -/
def idle : Dev := { quiet with downlink := { quiet.downlink with nextBoundary := 594 } }
theorem witness_IdleStepIsTheClock_tick : idle.resetAsserted = false ∧ idle.dueEvents = [] := by decide +kernel
theorem witness_IdleStepIsTheClock_due : (timed 2097152 idle).resetAsserted = false ∧
    (timed 2097152 idle).dueEvents = [.cellBoundary, .echoTimer, .reportTimer, .headStatusTimer] := by decide +kernel

/-- Without a plan: every time set is 100, and an order waits. -/
def allDue (now : HeadTime) : Dev :=
  { quiet with
    timing := { quiet.timing with
      now := now, echoDue := 100, statusDue := 100, nextAnchor := some 100, lossDeadline := some 100, inGroup := [⟨100, 1, 9⟩] }
    report := { quiet.report with timerDue := 100 }
    downlink := { (queued 63 quiet).downlink with nextBoundary := 100 }
    ring := { quiet.ring with frameStartHigh := true, frameStartEnd := some 100 }
    uplink := { quiet.uplink with missingDue := some 100, orders := [⟨0x15, [1, 0]⟩] } }
theorem witness_IdleStepIsTheClock_times : (allDue 99).dueEvents = [.clear 1] ∧
    (allDue 100).dueEvents = [.cellBoundary, .echoTimer, .reportTimer, .headStatusTimer, .anchorEvent, .capture, .frameStartEnd,
      .referenceLossDeadline, .missingFrameExpiry, .clear 1] := by decide +kernel
theorem witness_IdleStepIsTheClock_order : decodeOrder ⟨0x15, [1, 0]⟩ = some (.clear 1) ∧
    ({ allDue 99 with downlink := (queued 64 quiet).downlink } : Dev).nextOrder = none ∧
    ({ allDue 99 with uplink := { (allDue 99).uplink with executor := .executing 0x32 5 (.read 2) } } : Dev).dueEvents = [] := by
  decide +kernel
/-- Tile 0 is timed from its last advance at 9 (256 ticks), tile 1 from the frame start at 0 (allowance 500). -/
theorem witness_IdleStepIsTheClock_tiles :
    let d (now : HeadTime) : Dev := { idle with
      plan := filling.plan
      timing := { quiet.timing with now := now }
      tracker := { filling.tracker with ctx0 := some { contextOf 0 0 with fronts := [⟨3, 5, true, 9, .running⟩, .start] } } }
    (d 264).dueEvents = [] ∧ (d 265).dueEvents = [.tileDeadlineExpiry 0 0] ∧
    (d 500).dueEvents = [.tileDeadlineExpiry 0 0, .tileDeadlineExpiry 0 1] := by decide +kernel
/-- Two events due become the waiting commands in one of their orders. -/
theorem test_two_due : (step ⟨{ allDue 99 with timing := { (allDue 99).timing with echoDue := 99 } }, []⟩ =
    .next ⟨{ allDue 99 with timing := { (allDue 99).timing with echoDue := 99 }, freeCount := 1 },
      pickOrder (Config.tieOrder 0) [.echoTimer, .clear 1]⟩) := rfl

theorem witness_OrderBytesRoundTrip : (Instr.maskWrite 1 0x010203 [0xAA] [0xF0]).wf = true ∧
    encodeOrder (.maskWrite 1 0x010203 [0xAA] [0xF0]) = some ⟨0x36, [1, 0, 3, 2, 1, 0xAA, 0xF0]⟩ := by decide +kernel

/-! Invariants: states away from reset that meet them, and from which a step answers a next state. -/

theorem witness_QueueStaysSafe : (queued 64 filling).QueueSafe ∧
    step ⟨queued 64 filling, [.parkedAssert]⟩ = .next ⟨(queued 64 filling).setParked true, []⟩ := by
  refine ⟨⟨by decide +kernel, by decide +kernel, fun id => ?_, fun e h => ?_⟩, rfl⟩
  · rw [show (queued 64 filling).downlink.ctrl.countP (Entry.isWatch id) = 0 from
      List.countP_eq_zero.mpr fun x hx => by rw [(List.mem_replicate.mp hx).2]; simp [Entry.isWatch]]
    exact Nat.zero_le 1
  · exact absurd h (by simp [queued, filling, planned, quiet, State.reset, Dev.released])
theorem witness_PathStaysSafe : (waits 3 .feed true 10 (contested 16)).PathSafe ∧
    step ⟨waits 3 .feed true 10 (contested 16), [.parkedAssert]⟩ =
      .next ⟨(waits 3 .feed true 10 (contested 16)).setParked true, []⟩ := by
  refine ⟨?_, rfl⟩
  unfold Dev.PathSafe
  decide +kernel
theorem witness_CountsStaySafe : (echoing 32767 3).UplinkSafe ∧ (echoing 32767 3).TimingSafe ∧
    (echoing 32767 3).ReplaySafe ∧
    step ⟨echoing 32767 3, [.parkedAssert]⟩ = .next ⟨(echoing 32767 3).setParked true, []⟩ := by
  refine ⟨?_, ⟨by decide +kernel, by decide +kernel, rfl⟩, ?_, rfl⟩
  · unfold Dev.UplinkSafe
    decide +kernel
  · unfold Dev.ReplaySafe
    decide +kernel
theorem witness_RingStaysSafe : filling.RingSafe ∧
    step ⟨filling, [.parkedAssert]⟩ = .next ⟨filling.setParked true, []⟩ := by
  refine ⟨?_, rfl⟩
  unfold Dev.RingSafe
  decide +kernel
theorem limits_planA : planA.Limits := by
  unfold Plan.Limits ringLimits
  decide +kernel
theorem safe_planned : planned.PlanSafe :=
  ⟨rfl, rfl, fun _ h => (nomatch h), fun _ h => Option.some.inj h ▸ limits_planA⟩
theorem vacant_at (n k : Nat) : (List.replicate n Slot.vacant).getD k .vacant = .vacant := by
  rw [List.getD_eq_getElem?_getD, List.getElem?_replicate]
  split <;> rfl
theorem slot_filling (s : Nat) (h : 2 ≤ s) : filling.ring.slot s = .vacant := by
  obtain ⟨k, rfl⟩ := Nat.exists_eq_add_of_le' h
  exact vacant_at 30 k
theorem slots_filling (s : Nat) (h : (filling.ring.slot s).state ≠ .empty) : s = 0 ∨ s = 1 := by
  by_cases hs : 2 ≤ s
  · exact absurd (by rw [slot_filling s hs]; rfl) h
  · omega
theorem binding_filling : filling.BindingSafe := by
  refine ⟨fun s u hn hs hu => ?_, by decide +kernel, fun s => ⟨fun h => ?_, fun h => ?_⟩, fun i c h => ?_, fun s h => ?_,
    fun i j c e h h' _ => ?_, by decide +kernel, fun i => by cases i <;> decide +kernel, fun h => nomatch h⟩
  · rcases slots_filling s hs with rfl | rfl <;> rcases slots_filling u hu with rfl | rfl <;> first
      | exact absurd rfl hn
      | decide +kernel
  · rcases List.mem_pair.mp (show s ∈ [1, 0] from h) with rfl | rfl <;> decide +kernel
  · rcases slots_filling s h with rfl | rfl <;> decide +kernel
  · cases i
    · cases h
      decide +kernel
    · exact nomatch h
  · rcases slots_filling s (by rw [h]; decide) with rfl | rfl
    · exact ⟨.c0, _, rfl, rfl⟩
    · exact absurd h (by decide +kernel)
  · cases i
    · cases j
      · rfl
      · exact nomatch h'
    · exact nomatch h
theorem witness_BindingsStaySafe : filling.RingSafe ∧ filling.PlanSafe ∧ filling.BindingSafe ∧
    step ⟨filling, [.parkedAssert]⟩ = .next ⟨filling.setParked true, []⟩ :=
  ⟨witness_RingStaysSafe.1, safe_planned, binding_filling, rfl⟩
theorem filled_planA : planA.TilesFilled := by
  unfold Plan.TilesFilled
  decide +kernel
/-- Tile 0 of the frame in slot 0 has a damaged row and a write in flight over rows 1 to 3, tile 1 is FINISHED. -/
def tracked : Dev :=
  { filling with
    mem := { filling.mem with
      inflight := [⟨3, .passing 9, true, 2, [⟨0, some 0, 0, 1, 3⟩]⟩], nextTag := 4 }
    ring := { filling.ring with slots := filling.ring.slots.set 0 { slotOf .filling 5 with damage := [[⟨1, 2, false⟩], []] } }
    tracker := { filling.tracker with ctx0 := some { contextOf 0 0 with fronts :=
      [⟨3, 5, true, 9, .running⟩, ⟨17, 0, true, 9, .finished⟩] } } }
theorem witness_RingStaysSafe_track : tracked.TrackSafe ∧
    step ⟨tracked, [.parkedAssert]⟩ = .next ⟨tracked.setParked true, []⟩ := by
  have ctx (i : CtxId) (c : Context) (h : tracked.tracker.ctx i = some c) : i = .c0 ∧
      c = { contextOf 0 0 with fronts := [⟨3, 5, true, 9, .running⟩, ⟨17, 0, true, 9, .finished⟩] } := by
    cases i
    · exact ⟨rfl, (Option.some.inj h).symm⟩
    · exact nomatch h
  have slots (x : Slot) (hx : x ∈ tracked.ring.slots) : x.damage = [[⟨1, 2, false⟩], []] ∨ x.damage = [[], []] ∨ x.damage = [] := by
    revert x
    decide +kernel
  refine ⟨⟨fun _ h => (nomatch h), fun i c h => ?_, by decide +kernel, fun w h => ?_⟩, rfl⟩
  · obtain ⟨rfl, rfl⟩ := ctx i c h
    decide +kernel
  · obtain rfl := Option.some.inj h
    refine ⟨filled_planA, fun x hx t => ?_, fun i c h => ?_⟩
    · rcases slots x hx with h | h | h <;> rw [h] <;> rcases t with _ | _ | t <;> unfold RangesSafe <;>
        (simp [List.getD_eq_getElem?_getD]; try decide +kernel)
    · obtain ⟨rfl, rfl⟩ := ctx i c h
      refine ⟨rfl, fun t g h => ?_, by decide +kernel⟩
      rcases t with _ | _ | t
      · obtain rfl := Option.some.inj h
        exact ⟨by decide +kernel, by decide +kernel⟩
      · obtain rfl := Option.some.inj h
        exact ⟨by decide +kernel, rfl⟩
      · exact nomatch h
theorem witness_FeedAndScheduleStaySafe_feed : (nearEnd (.presented 0x20000FF6 10)).FeedSafe ∧
    step ⟨nearEnd (.presented 0x20000FF6 10), [.parkedAssert]⟩ =
      .next ⟨(nearEnd (.presented 0x20000FF6 10)).setParked true, []⟩ :=
  ⟨⟨⟨by decide +kernel, .inr (by decide +kernel), fun _ => by decide +kernel,
    by refine ⟨?_, ?_, ?_, ?_, ?_⟩ <;> decide +kernel⟩, safe_planned⟩, rfl⟩
theorem witness_FeedAndScheduleStaySafe_schedule : anchored.ScheduleSafe ∧
    step ⟨anchored, [.parkedAssert]⟩ = .next ⟨anchored.setParked true, []⟩ := ⟨⟨by decide +kernel, safe_planned⟩, rfl⟩
theorem witness_ResetHoldsAndReleases : ({ quiet with resetAsserted := true } : Dev).HeldInReset ∧
    step ⟨{ quiet with resetAsserted := true }, [.capture]⟩ = .next ⟨{ quiet with resetAsserted := true }, []⟩ ∧
    Instr.capture ≠ .parkedAssert ∧ Instr.capture ≠ .parkedWithdraw ∧ Instr.capture ≠ .resetAssert ∧
    ∀ straps, Instr.capture ≠ .deviceReset straps :=
  ⟨fun _ => by refine ⟨?_, ?_, ?_, ?_, ?_⟩ <;> decide +kernel, rfl, by decide, by decide, by decide,
   fun _ h => (nomatch h)⟩

/-! The memory path. -/

theorem witness_HeadSideAndParked_free : quiet.resetAsserted = false ∧ quiet.mem.transit = none := by decide +kernel
theorem witness_HeadSideAndParked_busy : (contested 0).mem.transit = some ⟨7, .read 64 8⟩ := by decide +kernel
theorem witness_PassingGrantsAndNoGrant_passing_read : (contested 15).mayGrant = true ∧ (contested 15).mem.portHeld = false ∧
    (contested 15).mem.steal < 16 ∧ (contested 15).inserted = some .remote ∧
    (contested 15).mem.transit = some ⟨7, .read 64 8⟩ := by decide +kernel
/-- A passing write waits that ends where the plan region begins, and touches a watch window's end. -/
def passingWrite : Dev := { sequence1 with mem := { sequence1.mem with transit := some ⟨7, .write 0xBFFFFFFE [1, 2]⟩ } }
theorem witness_PassingGrantsAndNoGrant_passing_write : passingWrite.mayGrant = true ∧ passingWrite.mem.portHeld = false ∧
    passingWrite.inserted = none ∧ passingWrite.mem.transit = some ⟨7, .write 0xBFFFFFFE [1, 2]⟩ ∧
    passingWrite.plan.working = none ∧
    (∀ i, i < [1, 2].length → 0xBFFFFFFE + i < passingWrite.mem.planAddr ∨
      passingWrite.mem.planAddr + 65536 ≤ 0xBFFFFFFE + i) ∧
    ∀ w ∈ passingWrite.watch.windows, 0xBFFFFFFE + 2 ≤ w.1 ∨ w.2 ≤ 0xBFFFFFFE := by
  decide +kernel
/-- Every inserted requester has a request to present; those above a rank do not. -/
def requesters : Dev :=
  let q : FetchReq := ⟨0x10000040, 4, 0, 0, 4, false, 1⟩
  { contested 16 with
    live := { quiet.live with fetcher := { quiet.live.fetcher with req := some (.a, q) } }
    report := { quiet.report with presented := some .producerWord, producer := some 0x20000000 }
    feed := (nearEnd (.presented 0x20000FF6 10)).feed
    replay := { quiet.replay with fetcher := { quiet.replay.fetcher with req := some (.b, q) } } }
/-- Without a live fetch, and then without a remote request. -/
def noLive : Dev := { requesters with live := quiet.live }
def rank3 : Dev := { noLive with remote := quiet.remote }
theorem witness_GrantOfInsertedRequests_live : requesters.mayGrant = true ∧ requesters.mem.portHeld = false ∧
    requesters.mem.steal = 16 ∧ requesters.live.fetcher.req = some (.a, ⟨0x10000040, 4, 0, 0, 4, false, 1⟩) := by
  decide +kernel
theorem witness_GrantOfInsertedRequests_remote : noLive.mayGrant = true ∧ noLive.mem.portHeld = false ∧
    noLive.mem.steal = 16 ∧ noLive.live.fetcher.req = none ∧ noLive.remote.req = some ⟨.read, .read 128 4⟩ := by
  decide +kernel
theorem witness_GrantOfInsertedRequests_maskRead :
    let d := { quiet with remote := { quiet.remote with req := some ⟨.maskRead, .read 128 4⟩ } }
    d.mayGrant = true ∧ d.mem.portHeld = false ∧ d.mem.transit = none ∧ d.live.fetcher.req = none ∧
    d.remote.req = some ⟨.maskRead, .read 128 4⟩ := by decide +kernel
theorem witness_GrantOfInsertedRequests_seed :
    let d := { quiet with
      remote := { quiet.remote with req := some ⟨.seed, .read 64 2⟩ }
      uplink := { quiet.uplink with executor := .executing 0x20 5 (.watchSet 3 64 2 .change) } }
    d.mayGrant = true ∧ d.mem.portHeld = false ∧ d.mem.transit = none ∧ d.live.fetcher.req = none ∧
    d.remote.req = some ⟨.seed, .read 64 2⟩ ∧ d.uplink.executor = .executing 0x20 5 (.watchSet 3 64 2 .change) := by
  decide +kernel
theorem witness_GrantOfInsertedRequests_feed : rank3.mayGrant = true ∧ rank3.mem.portHeld = false ∧ rank3.mem.steal = 16 ∧
    rank3.live.fetcher.req = none ∧ rank3.remote.req = none ∧ rank3.feed.drain = .presented 0x20000FF6 10 ∧
    rank3.mem.lastRank3 = .report := by decide +kernel
theorem witness_GrantOfInsertedRequests_producer :
    let d := { rank3 with mem := { rank3.mem with lastRank3 := .feed } }
    d.mayGrant = true ∧ d.mem.portHeld = false ∧ d.mem.steal = 16 ∧ d.live.fetcher.req = none ∧ d.remote.req = none ∧
    d.report.presented = some .producerWord ∧ d.report.producer = some 0x20000000 ∧ d.report.producerWanted = false ∧
    d.report.writing = none ∧ d.mem.lastRank3 = .feed := by decide +kernel
/-- The report writer alone presents a write of a record being written. -/
def reporting (w : ReportWrite) (halves : Nat) (wanted due : Bool) : Dev :=
  { quiet with report := { quiet.report with
      presented := some w, producer := some 0x20000000, producerWanted := wanted, writing := some (quiet.snapshot 1)
      halvesLeft := halves, recordDue := due } }
theorem witness_GrantOfInsertedRequests_reports : (reporting .producerWord 2 false false).mayGrant = true ∧
    (reporting .producerWord 2 false false).live.fetcher.req = none ∧
    (reporting .producerWord 2 false false).remote.req = none ∧
    (∀ p n, (reporting .producerWord 2 false false).feed.drain ≠ .presented p n) ∧
    (reporting .producerWord 2 false false).mem.transit = none ∧
    (reporting .producerWord 1 false false).report.halvesLeft = 1 :=
  ⟨by decide +kernel, rfl, rfl, fun _ _ h => (nomatch h), rfl, rfl⟩
theorem test_producer_word_then_half : (after .grantDecision (reporting .producerWord 1 false false)).map
    (fun d => (d.report.presented, d.report.halvesLeft)) = some (some .secondHalf, 0) := by decide +kernel
theorem test_wanted_word_before_half : (after .grantDecision (reporting .firstHalf 1 true false)).map
    (fun d => (d.report.presented, d.report.halvesLeft, d.report.producerWanted)) =
    some (some .producerWord, 1, false) := by decide +kernel
theorem test_record_due_follows : (after .grantDecision (reporting .secondHalf 0 false true)).map
    (fun d => (d.report.presented, d.report.recordNumber, d.report.recordDue)) =
    some (some .firstHalf, 2, false) := by decide +kernel
theorem witness_GrantOfInsertedRequests_replay :
    let d := { rank3 with report := quiet.report, feed := quiet.feed }
    d.mayGrant = true ∧ d.mem.portHeld = false ∧ d.mem.steal = 16 ∧ d.live.fetcher.req = none ∧ d.remote.req = none ∧
    d.report.presented = none ∧ d.feed.drain = .none ∧
    d.replay.fetcher.req = some (.b, ⟨0x10000040, 4, 0, 0, 4, false, 1⟩) := by decide +kernel
theorem witness_PassingGrantsAndNoGrant_nothing : quiet.mem.transit = none ∧ quiet.inserted = none := by decide +kernel
theorem witness_PassingGrantsAndNoGrant_full :
    let full : List InFlight :=
      (List.range 64).map fun n => { tag := n, owner := .report, isWrite := true, len := 8, handle := [] }
    let d := { contested 0 with mem := { (contested 0).mem with inflight := full } }
    d.mem.parked = false ∧ 64 ≤ d.mem.inflight.length := by decide +kernel
/-- The port is held by a MASK-WRITE whose write waits, or not. -/
def holding (req : Option RemoteReq) : Dev :=
  { contested 5 with mem := { (contested 5).mem with portHeld := true }, remote := { quiet.remote with req := req } }
theorem witness_PassingGrantsAndNoGrant_held : (holding none).mem.portHeld = true ∧
    ∀ op, (holding none).remote.req ≠ some ⟨.maskWrite, op⟩ := ⟨rfl, fun _ h => (nomatch h)⟩
theorem witness_PassingGrantsAndNoGrant_maskWrite : (holding (some ⟨.maskWrite, .write 64 [1]⟩)).mayGrant = true ∧
    (holding (some ⟨.maskWrite, .write 64 [1]⟩)).mem.portHeld = true ∧
    (holding (some ⟨.maskWrite, .write 64 [1]⟩)).remote.req = some ⟨.maskWrite, .write 64 [1]⟩ := by decide +kernel
theorem witness_PiecesOfAWrite : sequence1.pieces 0xC0000FFE [1, 2, 3] =
    [(0xC0000FFE, [1, 2])] ++ (0xC0001000, [3]) :: [] ∧ isBoundary sequence1.regions 0xC0001000 = true ∧
    isBoundary sequence1.regions 0xC0000FFF = false := by decide +kernel

/-! Classified writes: a write waits in transit, or as the write of a remote order. -/

def writing (a : Addr) (bytes : List Byte) (d : Dev) : Dev :=
  { d with mem := { d.mem with transit := some ⟨7, .write a bytes⟩ } }
def remoteWriting (a : Addr) (bytes : List Byte) (d : Dev) : Dev :=
  { d with remote := { d.remote with req := some ⟨.write, .write a bytes⟩ } }
theorem no_entry (j : Nat) : (List.replicate 8 (none : Option WatchEntry))[j]?.join = none := by
  rw [List.getElem?_replicate]
  split <;> rfl
theorem witness_ClassifiedWritesAreHandedOn_passing : (writing 0x10000003 [1, 2] filling).mayGrant = true ∧
    (writing 0x10000003 [1, 2] filling).mem.portHeld = false ∧ ([1, 2] : List Byte) ≠ [] ∧
    (writing 0x10000003 [1, 2] filling).mem.transit = some ⟨7, .write 0x10000003 [1, 2]⟩ ∧
    (writing 0x10000003 [1, 2] filling).inserted = none := by decide +kernel
theorem witness_ClassifiedWritesAreHandedOn_remote : (remoteWriting 0x10000003 [1, 2] filling).mayGrant = true ∧
    (remoteWriting 0x10000003 [1, 2] filling).mem.transit = none ∧
    (remoteWriting 0x10000003 [1, 2] filling).live.fetcher.req = none ∧
    (remoteWriting 0x10000003 [1, 2] filling).remote.req = some ⟨.write, .write 0x10000003 [1, 2]⟩ := by decide +kernel
/-- The write of the MASK-WRITE that holds the port, with a passing request waiting and the steal counter at 16. -/
theorem witness_ClassifiedWritesAreHandedOn_held :
    let d := { contested 16 with
      mem := { (contested 16).mem with portHeld := true }
      remote := { quiet.remote with req := some ⟨.maskWrite, .write 0x10000003 [1, 2]⟩ } }
    d.mayGrant = true ∧ d.mem.portHeld = true ∧ d.remote.req = some ⟨.maskWrite, .write 0x10000003 [1, 2]⟩ ∧
    d.mem.transit.isSome = true := by decide +kernel
theorem test_mask_write_is_classified : (after .grantDecision { filling with
    mem := { filling.mem with portHeld := true }
    remote := { filling.remote with req := some ⟨.maskWrite, .write 0x10000000 [1, 2]⟩ } }).map
    (fun d => (d.mem.portHeld, d.mem.inflight.map (·.handle), d.tracker.ctx0.map fun c => c.fronts.map fun g => g.byte)) =
    some (false, [[⟨0, some 0, 0, 0, 0⟩]], some [2, 0]) := by decide +kernel
/-- Two bytes of a row, and the end of a row, its padding and the next row's first two bytes. -/
theorem witness_ClassifiedWritesAreHandedOn_rows : filling.plan.working = some workA ∧ filling.mem.planAddr = 0 ∧
    (∀ j e, filling.watch.entry j = some e → False) ∧ filling.watch.seeding = none ∧ filling.Binds 0 (some 0) ∧
    (∀ j, j < 2 → planA.locate (0x10000003 + j) = some ⟨0, 0, 0, 3 + j⟩) ∧
    (∀ j, j < 2 → planA.locate (0x1000001E + j) = some ⟨0, 0, 0, 30 + j⟩) ∧
    (∀ j, j < 34 → 2 ≤ j → planA.locate (0x1000001E + j) = none) ∧
    (∀ j, j < 36 → 34 ≤ j → planA.locate (0x1000001E + j) = some ⟨0, 0, 1, j - 34⟩) := by
  refine ⟨rfl, by decide +kernel, fun j e h => ?_, rfl, .inr ⟨.c0, contextOf 0 0, rfl, rfl, rfl, ?_, rfl⟩, by decide +kernel,
    by decide +kernel, by decide +kernel, by decide +kernel⟩
  · rw [show filling.watch.entry j = _ from no_entry j] at h
    exact nomatch h
  · intro j e h _
    cases j
    · rfl
    · exact nomatch h
theorem witness_ClassifiedWritesAreHandedOn_parts : quiet.mem.planAddr = 0 ∧ quiet.plan.working = none ∧
    (∀ b ∈ [0x1000, 0x1100, 0x2000, 0x2400, 65536], 0xFFF < b → 0xFFF + 1 ≤ b) ∧
    (∀ b ∈ [0x1000, 0x1100, 0x2000, 0x2400, 65536], 0xFFFF < b → 0xFFFF + 1 ≤ b) ∧
    ((0xFFF < 0x1000 ∧ 0x1000 < 0xFFF + 0x101) ∧ 0xFFF + 0x101 ≤ 0x1100) := by decide +kernel
/-- Writes that meet the watched range at its first and at its last byte; no other range is watched. -/
theorem witness_ClassifiedWritesAreHandedOn_watch :
    sequence1.watch.entry 2 = some ⟨0xC0001008, 8, .every, List.replicate 8 0, List.replicate 8 0⟩ ∧
    (∀ j e, sequence1.watch.entry j = some e → some j ≠ some 2 → False) ∧ sequence1.watch.seeding = none := by
  refine ⟨rfl, fun j e h hj => ?_, rfl⟩
  rw [show sequence1.watch.entry j = (((List.replicate 8 none).set 2 _)[j]?).join from rfl,
    List.getElem?_set_ne (fun e => hj (congrArg some e.symm)), no_entry j] at h
  exact nomatch h
theorem witness_ClassifiedWritesAreHandedOn_seed : seeding.watch.seeding =
    some ⟨3, 64, 2, .change, [none, some 9], 1, some 70⟩ ∧ (∀ j e, seeding.watch.entry j = some e → False) ∧
    seeding.plan.working = none ∧ (writing 63 [1, 2] { seeding with mem := { seeding.mem with planBase := 1 } }).mayGrant = true := by
  refine ⟨rfl, fun j e h => ?_, rfl, by decide +kernel⟩
  rw [show seeding.watch.entry j = _ from no_entry j] at h
  exact nomatch h
theorem witness_MemoryResponses_unmatched : quiet.resetAsserted = false ∧ quiet.mem.record 3 = none := by decide +kernel
theorem witness_MemoryResponses_matched :
    let r : InFlight := { tag := 3, owner := .passing 9, isWrite := false, len := 2, handle := [] }
    (waits 3 (.passing 9) false 2 quiet).mem.record 3 = some r ∧ r.fits (.data [1, 2]) = true ∧ r.fits .error = true ∧
    r.fits (.data [1]) = false := by decide +kernel

/-- A write of two bytes in error: rows 2 to 4 of tile 1 under the binding in force, and rows under one that has ended. -/
def errored (owner : Owner) (d : Dev) : Dev :=
  { d with mem := { d.mem with
      inflight := [{ tag := 3, owner := owner, isWrite := true, len := 2
                     handle := [⟨0, some 0, 1, 2, 4⟩, ⟨0, some 9, 0, 5, 6⟩, ⟨1, none, 0, 7, 8⟩] }], nextTag := 4 } }
theorem witness_MemoryResponses_handle : (errored (.passing 9) filling).mem.record 3 =
    some { tag := 3, owner := .passing 9, isWrite := true, len := 2
           handle := [⟨0, some 0, 1, 2, 4⟩, ⟨0, some 9, 0, 5, 6⟩, ⟨1, none, 0, 7, 8⟩] } := by decide +kernel
theorem test_error_damages_bound_rows : (after (.memoryResponse 3 .error) (errored (.passing 9) filling)).map
    (fun d => ((d.ring.slot 0).damage, (d.ring.slot 1).damage)) = some ([[], [⟨2, 4, false⟩]], [[], []]) := by
  decide +kernel
/-! The plan unit and the report writer. -/

theorem witness_StagingWriteFillsShadow_before : staged.resetAsserted = false ∧ staged.plan.shadow.wf = true ∧
    (0x0FFB#16).toNat + [7].length ≤ 0x0FFC := by decide +kernel
theorem witness_StagingWriteFillsShadow_after : (0x0FFD#16).toNat + [1, 2, 3].length ≤ 0x1000 ∧
    0x0FFC < (0x0FFD#16).toNat ∧ 0x1010 ≤ (0x1010#16).toNat ∧ (0x0FF8#16).toNat + [1, 2, 3, 4].length = 0x0FFC := by
  decide +kernel
/-- Pieces that cover the commit word's first byte and not all of it, the end of the staging area, a live word in part, both
live words; the last byte of a word and the gap between the two words take nothing. -/
theorem witness_StagingWriteFillsShadow_parts : staged.plan.shadow.wf = true ∧ staged.plan.live.wf = true ∧
    ((0x0FFC#16).toNat ≤ 0x0FFC ∧ 0x0FFC < (0x0FFC#16).toNat + [1].length) ∧
    ((0x0FFF#16).toNat < 0x1000 ∧ 0x1000 < (0x0FFF#16).toNat + [1, 2].length) ∧
    ((0x1000#16).toNat = 0x1000 ∧ ¬0x1008 < (0x1000#16).toNat + [1].length) ∧
    ((0x1001#16).toNat ≤ 0x1008 ∧ ¬0x1008 < (0x1001#16).toNat + (List.replicate 7 (0 : Byte)).length) ∧
    0x1008 < (0x1000#16).toNat + (List.replicate 9 (0 : Byte)).length ∧ (0x1008#16).toNat ≤ 0x1008 ∧
    0x1008 < (0x1009#16).toNat := by decide +kernel
/-- R29's example: 0x1008 … 0x100B alone, the upper four bytes from an earlier write. -/
theorem test_partial_consumed : (after (.stagingWrite 0x1008 [0x40, 0, 0, 0x20]) { planned with
    plan := { planned.plan with live := [(0x100C, 1)] } }).map (fun d => (d.feed.consumer, d.counters.refusedConsumers)) =
    some (0x20000000, 1) := by decide +kernel
theorem test_partial_ack : (after (.stagingWrite 0x1000 [0x10]) { quiet with
    plan := { quiet.plan with live := [(0x1001, 7)] }
    report := { quiet.report with causes := { quiet.report.causes with fault := true, link := true } } }).map
    (fun d => (d.plan.live, d.report.causes.fault, d.report.causes.link)) = some ([(0x1000, 0x10), (0x1001, 7)], false, true) := by
  decide +kernel
/-- The fields that the bytes of `shadowA` give. -/
def stagedA : Staged := shadowA.staged
theorem witness_ValidationOrder : stagedA.strips.length = min 4 stagedA.stripCount ∧
    stagedA.tiles.length = min 8 stagedA.tileCount ∧ stagedA.failure 0 2147483648 = none := by decide +kernel
/-- Each fails its own group and the last; the first failing one is named. -/
theorem test_validation_order :
    let bad (g : Staged) := { g with retStart := 1 }.failure 0 2147483648
    [{ stagedA with ringBase := 1 }, { stagedA with slots := 3 }, { stagedA with speed := 5 }, { stagedA with period := 999999 },
      { stagedA with height := 15 }, { stagedA with strips := [{ first := 1, height := 16, up := false }] },
      { stagedA with tiles := stagedA.tiles.map fun t => { t with x := 0 } }, stagedA].map bad =
    [.ring, .slots, .speed, .period, .format, .strips, .tiles, .ret].map some := by decide +kernel
theorem witness_CommitIsRejected : quiet.plan.shadow.wf = true ∧ quiet.report.causes.commit = false ∧
    quiet.report.writing = none ∧ (Memory.writeIn 0 0x1000 quiet.plan.shadow 0x0FFC (leBytes 4 7)).staged.failure
      quiet.mem.planAddr (MemSize.bytes quiet.mem.memSize) = some .ring := by decide +kernel
theorem witness_CommitIsRejected_again :
    ((after (.commit 7) quiet).map fun d => d.report.causes.commit && d.plan.shadow.wf && d.report.writing.isSome) =
      some true := by decide +kernel
theorem witness_CommitIsRejected_writing : State.reset.dev.report.causes.commit = false ∧
    State.reset.dev.report.writing ≠ none := by decide +kernel
theorem witness_CommitIsAccepted : staged.resetAsserted = false ∧ staged.plan.shadow.wf = true ∧
    staged.plan.working = none ∧ (Memory.writeIn 0 0x1000 staged.plan.shadow 0x0FFC (leBytes 4 7)).staged.failure
      staged.mem.planAddr (MemSize.bytes staged.mem.memSize) = none := by decide +kernel
theorem witness_CommitIsAccepted_again :
    ((after (.commit 7) staged).map fun d => d.plan.working.isSome && d.plan.shadow.wf) = some true := by decide +kernel
theorem witness_LiveWordsAreTaken_ack : quiet.resetAsserted = false ∧ quiet.plan.live.wf = true := by decide +kernel
/-- 16 bytes written and not consumed: P is 16 ahead of C. -/
def written : Dev := { planned with feed := { planned.feed with producer := 0x20000010 } }
theorem witness_LiveWordsAreTaken_taken : written.plan.live.wf = true ∧ written.feed.start ≤ 0x20000010 ∧
    0x20000010 < written.feed.stop ∧
    (written.feed.producer + 4096 - 0x20000010) % 4096 ≤ (written.feed.producer + 4096 - written.feed.consumer) % 4096 ∧
    written.feed.fifo = [] := by decide +kernel
theorem witness_LiveWordsAreTaken_refused : ¬((written.feed.start ≤ 0x20000011 ∧ 0x20000011 < written.feed.stop) ∧
    (written.feed.producer + 4096 - 0x20000011) % 4096 ≤
      (written.feed.producer + 4096 - written.feed.consumer) % 4096) := by decide +kernel
theorem witness_ReportTimerAndWrites_due : (timed 2097152 quiet).plan.working = none ∧
    reached 2097152 (timed 2097152 quiet).report.timerDue = true ∧ (timed 2097152 quiet).report.writing = none := by
  decide +kernel
theorem witness_ReportTimerAndWrites_writing : (timed 2097152 State.reset.dev).plan.working = none ∧
    reached 2097152 (timed 2097152 State.reset.dev).report.timerDue = true ∧
    (timed 2097152 State.reset.dev).report.writing ≠ none := by decide +kernel
theorem witness_ReportTimerAndWrites_early : reached 2097151 (timed 2097151 quiet).report.timerDue = false ∧
    planned.plan.working ≠ none := by decide +kernel
theorem witness_ReportTimerAndWrites_response : (waits 3 .report true 256 quiet).mem.record 3 =
    some { tag := 3, owner := .report, isWrite := true, len := 256, handle := [] } := by decide +kernel

/-! Timing and genlock. -/

theorem witness_TimersExpire_echo_admitted : reached 2097152 (timed 2097152 (queued 55 quiet)).timing.echoDue = true ∧
    (queued 55 quiet).downlink.ctrl.length ≤ 55 := by decide +kernel
theorem witness_TimersExpire_echo_refused : 55 < (queued 56 quiet).downlink.ctrl.length := by decide +kernel
theorem witness_TimersExpire_status : (timed 2097152 (queued 54 quiet)).plan.working = none ∧
    reached 2097152 (timed 2097152 (queued 54 quiet)).timing.statusDue = true ∧
    (queued 54 quiet).feed.pendingDrop = 0 ∧
    ({ queued 54 quiet with feed := { quiet.feed with pendingDrop := 1 } } : Dev).feed.pendingDrop ≠ 0 ∧
    (queued 55 quiet).downlink.ctrl.length ≤ 55 ∧ 55 < (queued 56 quiet).downlink.ctrl.length := by decide +kernel
theorem witness_ReferencesAreTaken_unplanned : quiet.resetAsserted = false ∧ quiet.plan.working = none ∧
    planned.plan.working ≠ none ∧ planned.timing.delayValid = false := by decide +kernel
theorem witness_ReferencesAreTaken_lost : locked.timing.lossDeadline = some 10 ∧
    reached locked.timing.now 10 = true ∧ locked.timing.genlock = .locked := by decide +kernel
theorem witness_ReferencesAreTaken_free :
    let d := { locked with timing := { locked.timing with genlock := .free } }
    d.timing.lossDeadline = some 10 ∧ reached d.timing.now 10 = true ∧ d.timing.genlock ≠ .locked := by decide +kernel
/-- A reference so late that one period must be added: the anchor of the first try is not later than the present. -/
theorem witness_ReferencesAreTaken_anchor : acquiring.plan.working.map (·.plan.period) = some 2475000 ∧
    acquiring.timing.delayValid = true ∧ acquiring.timing.nextAnchor = some 3000000 ∧ acquiring.timing.genlock ≠ .locked ∧
    (let a (j : Nat) : HeadTime := 0#32 - 1500000 + BitVec.ofNat 32 2475000 - BitVec.ofNat 32 4430 - BitVec.ofNat 32 12000 +
      BitVec.ofNat 32 (j * 2475000)
     later (a 1) acquiring.timing.now = true ∧ later (a 0) acquiring.timing.now = false) := by decide +kernel
/-- LOCKED, and an anchor outside the lock window: LOCKED is left. -/
theorem witness_ReferencesAreTaken_left :
    let d := { acquiring with timing := { acquiring.timing with genlock := .locked, lockRun := 3 } }
    let a : HeadTime := 1000000 + BitVec.ofNat 32 2475000 - BitVec.ofNat 32 4430 - BitVec.ofNat 32 12000
    d.timing.genlock = .locked ∧ later a d.timing.now = true ∧ ¬ (a - 3000000).toInt.natAbs ≤ 1000 := by decide +kernel
theorem test_reference_leaves_locked : (after (.reference 1000 1000000) { acquiring with
    timing := { acquiring.timing with genlock := .locked, lockRun := 3 } }).map
    (fun d => (d.timing.genlock, d.report.causes.genlock, d.timing.lockRun)) = some (.locking, true, 0) := by decide +kernel
theorem witness_AdditionsAreTheLeast : additions 5000000 1000000 1000000 = 5 ∧ additions 5 4294967290 1000000 = 1 := by
  decide +kernel
theorem witness_EchoReturnIsFiltered_ignored : quiet.timing.echoOut = false ∧ (echoing 0 0).timing.echoSeq ≠ 2 := by
  decide +kernel
theorem witness_EchoReturnIsFiltered_first :
    let d := { echoing 0 0 with timing := { (echoing 0 0).timing with delayValid := false } }
    d.timing.echoOut = true ∧ d.timing.echoSeq = 1 ∧ d.timing.delayValid = false := by decide +kernel
/-- A difference of 256 is taken in, one of 257 is an outlier. -/
theorem witness_EchoReturnIsFiltered_bounds : (echoing 32767 3).timing.echoOut = true ∧
    (echoing 32767 3).timing.echoSeq = 1 ∧ (echoing 32767 3).timing.delayValid = true ∧
    ((min 65535 ((65022#32 - 0).toNat - (0#32).toNat) / 2 : Nat) - (32767 : Int)).natAbs = 256 ∧
    ((min 65535 ((65020#32 - 0).toNat - (0#32).toNat) / 2 : Nat) - (32767 : Int)).natAbs = 257 := by decide +kernel
/-- A pending plan 65,536 ticks old at the anchor, and one that is one tick too young. -/
def pendingAt (t : HeadTime) : Dev :=
  { anchored with
    plan := { anchored.plan with pending := some ⟨planA, 2, t⟩ }
    timing := { anchored.timing with now := 70000, nextAnchor := some 70000 } }
theorem witness_AnchorEventBuildsTheGroup : (pendingAt 4464).timing.nextAnchor = some 70000 ∧
    reached (pendingAt 4464).timing.now 70000 = true ∧ 65536 ≤ ((70000 : HeadTime) - 4464).toNat ∧
    ¬ 65536 ≤ ((70000 : HeadTime) - 4465).toNat ∧ (pendingAt 4464).plan.working = some workA := by decide +kernel
theorem witness_AnchorEventBuildsTheGroup_paused :
    let d := { anchored with ring := { anchored.ring with gate := .paused }, report := State.reset.dev.report }
    d.plan.pending = none ∧ d.ring.gate = .paused ∧ d.downlink.ctrl.length ≤ 55 ∧ d.feed.pendingDrop = 0 ∧
    d.report.writing ≠ none ∧ d.plan.working = some workA := by decide +kernel

theorem witness_AnchorsApplyAndCapture_apply : (pendingAt 4464).plan.pending = some ⟨planA, 2, 4464⟩ ∧
    planA.retStart = (pendingAt 4464).feed.start ∧ planA.retEnd = (pendingAt 4464).feed.stop ∧
    (written.feed.start ≠ 0 ∨ written.feed.stop ≠ 0) := by decide +kernel
/-- An apply with a request in SENDING and one queued: there is room for both entries. -/
theorem witness_AnchorsApplyAndCapture_requests :
    let d := { pendingAt 4464 with replay := { (replayingAt .sending false).replay with
      queue := [⟨6, 5, 0, 0, false, false⟩] } }
    d.plan.pending = some ⟨planA, 2, 4464⟩ ∧
    d.replay.ends = [.replayEnd .cancelled 5 6 4, .replayEnd .cancelled 6 5 0] ∧
    d.downlink.ctrl.length + d.replay.ends.length ≤ 64 ∧
    (after .anchorEvent d).map (fun e => (e.replay.current, e.replay.queue, e.downlink.ctrl.take 2)) =
      some (none, [], d.replay.ends) := by decide +kernel
/-- An anchor with a record being written; the live reader has no frame, an active one, or one that waits too. -/
def grouped (active waiting : Option Nat) : Dev :=
  { filling with
    timing := anchored.timing
    report := State.reset.dev.report
    live := { filling.live with active := active, waiting := waiting } }
theorem witness_AnchorsApplyAndCapture_group : (grouped none none).plan.pending = none ∧
    (grouped none none).ring.gate ≠ .paused ∧ (grouped none none).tracker.ctx1 = none ∧
    (grouped none none).ring.choose workA.plan.slots = some 2 ∧ (grouped none none).downlink.ctrl.length ≤ 55 ∧
    (grouped none none).feed.pendingDrop = 0 ∧ (grouped none none).report.writing ≠ none ∧
    (grouped none none).timing.nextAnchor = some 1000 ∧ (grouped (some 1) none).live.active = some 1 ∧
    (grouped (some 1) (some 0)).live.waiting = some 0 := by decide +kernel
theorem test_anchor_offers_frame : (after .anchorEvent (grouped (some 1) (some 0))).map
    (fun d => (d.live.waiting, (d.ring.slot 2).live, (d.ring.slot 0).live, d.counters.liveDrops)) =
    some (some 2, true, false, 1) := by decide +kernel

/-! Captures, the ring, the tracker. -/

/-- All five slots taken: CLOSED ones 1 and 0 of which 1 is marked, 2 FILLING, 3 and 4 held. -/
def crowded : Ring :=
  { filling.ring with
    slots := [slotOf .closed 5, { slotOf .closed 6 with live := true }, slotOf .filling 7,
      { slotOf .closed 8 with held := true }, { slotOf .closed 9 with held := true }] ++ List.replicate 27 .vacant
    age := [1, 3, 4, 0, 2], holdCount := 2 }
theorem witness_SlotAndNumberOfACapture : crowded.slots.length = 32 ∧ filling.ring.choose 5 = some 2 ∧
    crowded.choose 5 = some 0 ∧ ({ crowded with slots := crowded.slots.set 0 (slotOf .filling 5) } : Ring).choose 5 = none ∧
    crowded.frameFor 0 = 10 ∧ crowded.frameCounter = 7 := by decide +kernel
theorem witness_CaptureTakesASlot : capturing.timing.inGroup = ⟨400, 1, 9⟩ :: [] ∧
    reached capturing.timing.now 400 = true ∧ capturing.plan.working = some workA ∧ capturing.ring.gate ≠ .paused ∧
    capturing.tracker.ctx1 = none ∧ capturing.ring.choose workA.plan.slots = some 2 := by decide +kernel
theorem witness_CaptureTakesASlot_skipped :
    let d := { capturing with ring := { crowded with slots := crowded.slots.set 0 (slotOf .filling 5) } }
    d.ring.gate ≠ .paused ∧ d.tracker.ctx1 = none ∧ d.ring.choose workA.plan.slots = none := by decide +kernel
theorem witness_CaptureTakesASlot_paused :
    ({ capturing with ring := { capturing.ring with gate := .paused } } : Dev).ring.gate = .paused := by decide +kernel
/-- Frames in slots 2 and 0 are FILLING, that in slot 2 bound first. -/
def twice : Dev :=
  { capturing with
    ring := { filling.ring with
      slots := [slotOf .filling 5, slotOf .closed 6, slotOf .filling 7] ++ List.replicate 29 .vacant, age := [1, 2, 0] }
    tracker := { ctx0 := some (contextOf 1 0), ctx1 := some (contextOf 0 2), order := [.c1, .c0], nextBinding := 2 } }
theorem witness_CaptureTakesASlot_forced : twice.ring.gate ≠ .paused ∧
    ¬(twice.tracker.ctx0 = none ∨ twice.tracker.ctx1 = none) ∧ twice.tracker.order.head? = some .c1 ∧
    twice.tracker.ctx .c1 = some (contextOf 0 2) := by decide +kernel
theorem test_forced_close : (after .capture twice).map
    (fun d => (d.downlink.ctrl, d.counters.forcedCloses, (d.ring.slot 2).state, d.tracker.ctx1.map (·.slot))) =
    some ([.frameClosed 7 2 0 0 32 [true, true] 0], 1, .closed, some 3) := by decide +kernel
/-- The frame in slot 0 with the fronts of its two tiles. -/
def fronted (a b : Front) : Dev :=
  { filling with tracker := { filling.tracker with ctx0 := some { contextOf 0 0 with fronts := [a, b] } } }
def ended (st : TileStatus) : Front := { row := 17, byte := 0, seen := true, lastAdvance := 9, status := st }
def inRow3 : Front := { row := 3, byte := 5, seen := true, lastAdvance := 9, status := .running }
theorem witness_TrackerPiecesAreJudged_states : (filling.ring.slot 2).state = .empty ∧ (filling.ring.slot 1).state = .closed ∧
    (filling.ring.slot 0).state = .filling := by decide +kernel
theorem witness_TrackerPiecesAreJudged_fronts : (fronted inRow3 (ended .finished)).tracker.ctx .c0 =
    some { contextOf 0 0 with fronts := [inRow3, ended .finished] } ∧
    (∀ j e, (fronted inRow3 (ended .finished)).tracker.ctx j = some e → e.slot = 0 → j = .c0) ∧
    [inRow3, ended .finished][0]? = some inRow3 ∧ inRow3.status = .running ∧ (ended .finished).status ≠ .running ∧
    ((3 = inRow3.row ∧ 5 ≤ inRow3.byte) ∧ ¬(4 < inRow3.row ∨ (4 = inRow3.row ∧ 6 ≤ inRow3.byte))) ∧
    (32 = (planA.tileAt 0).cols * planA.bpp ∧
      16 + 1 = (planA.tileAt 0).lead + (planA.stripAt (planA.tileAt 0).strip).height) := by
  refine ⟨rfl, fun j e h _ => ?_, by decide +kernel⟩
  cases j
  · rfl
  · exact nomatch h
theorem test_tracker_jump : let d := (fronted inRow3 .start).trackerPiece planA 700 ⟨0, 0, 6, 8, 16⟩
    ((d.ring.slot 0).damage, d.tracker.ctx0.map fun c => c.fronts[0]?) =
    ([[⟨3, 6, false⟩], []], some (some { row := 6, byte := 16, seen := true, lastAdvance := 700, status := .running })) := by
  decide +kernel
theorem test_tracker_closes : let d := (fronted { inRow3 with row := 16 } (ended .stalled)).trackerPiece planA 700 ⟨0, 0, 16, 5, 32⟩
    ((d.ring.slot 0).state, (d.ring.slot 0).outcomes, d.tracker.ctx0) = (.closed, [.finished, .stalled], none) := by
  decide +kernel
theorem witness_TileDeadlineStalls_last : (fronted (ended .finished) inRow3).tracker.ctx .c0 =
    some { contextOf 0 0 with fronts := [ended .finished, inRow3] } ∧ [ended .finished, inRow3][1]? = some inRow3 ∧
    inRow3.seen = true ∧ reached (timed 265 (fronted (ended .finished) inRow3)).timing.now
      (inRow3.lastAdvance + BitVec.ofNat 32 (2 ^ 0 * 256 * 1)) = true ∧
    reached 264 (inRow3.lastAdvance + BitVec.ofNat 32 (2 ^ 0 * 256 * 1)) = false := by decide +kernel
theorem test_last_deadline_closes : (after (.tileDeadlineExpiry 0 1) (timed 265 (fronted (ended .finished) inRow3))).map
    (fun d => (d.downlink.ctrl, (d.ring.slot 0).outcomes, d.tracker.order)) =
    some ([.frameClosed 5 0 0 0 14 [false, true] 0], [.finished, .stalled], []) := by decide +kernel
theorem witness_FramesClose : (fronted inRow3 inRow3).tracker.ctx .c0 = some { contextOf 0 0 with fronts := [inRow3, inRow3] } ∧
    (contextOf 0 0).slot < filling.ring.slots.length ∧ (∀ w, filling.plan.working = some w → w.plan.height = 16) ∧
    (∃ g ∈ [inRow3, inRow3], g.status = .running) ∧ (∀ g ∈ [ended .finished, ended .stalled], g.status ≠ .running) ∧
    (∀ t, t < planA.tiles.length → RangesSafe (planA.rows (planA.tileAt t)) ((filling.ring.slot 0).damage.getD t [])) ∧
    filling.downlink.ctrl.length ≤ 47 ∧ ¬(queued 48 filling).downlink.ctrl.length ≤ 47 := by
  unfold RangesSafe
  refine ⟨rfl, by decide +kernel, fun w h => ?_, by decide +kernel⟩
  cases h
  rfl
theorem witness_FramesClose_waits : (replayingAt .waitingClose false).replay.current.map (fun c => (c.stage, c.slot)) =
    some (.waitingClose, 1) ∧ (replayingAt .waitingClose false).plan.working ≠ none := by decide +kernel
theorem witness_TimersExpire_frameStart :
    let d := { quiet with ring := { quiet.ring with frameStartHigh := true, frameStartEnd := some 148 } }
    d.ring.frameStartEnd = some 148 ∧ reached (timed 148 d).timing.now 148 = true ∧
    reached (timed 147 d).timing.now 148 = false := by decide +kernel
theorem witness_TileDeadlineStalls : filling.plan.working = some workA ∧
    filling.tracker.ctx .c0 = some (contextOf 0 0) ∧ (contextOf 0 0).fronts[1]? = some .start ∧
    (contextOf 0 0).fronts[0]? = some .start ∧ Front.start.status = .running ∧ Front.start.seen = false ∧
    reached (timed 500 filling).timing.now ((0 : HeadTime) + BitVec.ofNat 32 500) = true ∧
    reached (timed 499 filling).timing.now ((0 : HeadTime) + BitVec.ofNat 32 500) = false := by decide +kernel
theorem witness_DamageListsStayOrdered : RangesSafe 1084 eightRanges ∧
    (eightRanges.length < 8 ∨ ∃ r ∈ eightRanges, r.first ≤ 11 + 1 ∧ 11 ≤ r.last + 1) := by
  unfold RangesSafe
  decide +kernel
theorem witness_PixelAddressesMapBack : stagedA.failure 0 2147483648 = none ∧ stagedA.tiles.length = stagedA.tileCount ∧
    stagedA.strips.length = stagedA.stripCount ∧ (stagedA.toPlan.clamp).stripOf 15 = some 0 ∧
    ((stagedA.toPlan.clamp).tileAt 1).strip = 0 ∧ ((stagedA.toPlan.clamp).tileAt 1).x ≤ 63 ∧
    63 < ((stagedA.toPlan.clamp).tileAt 1).x + ((stagedA.toPlan.clamp).tileAt 1).active ∧
    4 < (stagedA.toPlan.clamp).slots ∧ 1 < (stagedA.toPlan.clamp).tiles.length := by decide +kernel

theorem witness_LinesAreSendable : planA.stripOf 15 = some 0 ∧ filling.sendable planA 1 15 = true ∧
    (fronted { inRow3 with row := 17 } (ended .stalled)).sendable planA 0 15 = true ∧
    (fronted { inRow3 with row := 16 } (ended .stalled)).sendable planA 0 15 = false ∧
    (∀ i j c e, filling.tracker.ctx i = some c → filling.tracker.ctx j = some e → c.slot = e.slot → i = j) ∧
    planA.segDamaged { slotOf .closed 6 with damage := [[⟨16, 16, false⟩], []] } 15 0 = true ∧
    planA.segDamaged { slotOf .closed 6 with damage := [[⟨16, 16, false⟩], []] } 14 0 = false :=
  ⟨by decide +kernel, by decide +kernel, by decide +kernel, by decide +kernel, binding_filling.2.2.2.2.2.1,
   by decide +kernel, by decide +kernel⟩
/-- A line with requests, and under BLACK a wholly damaged one without. -/
theorem witness_LinesAreRequested : planA.source = .sensor ∧ planA.stripOf 0 = some 0 ∧ planA.tilesOf 0 = [0, 1] ∧
    ((planA.lineRequests (slotOf .closed 6) 1 0).map fun r => (r.addr, r.len)) = [(0x10001040, 32), (0x10001840, 32)] ∧
    ({ planA with conceal := .black } : Plan).lineRequests
      { slotOf .closed 6 with damage := [[⟨0, 16, false⟩], [⟨0, 16, false⟩]] } 1 0 = [] := by decide +kernel
theorem test_repeat_conceals : (planA.lineRequests { slotOf .closed 6 with damage := [[⟨3, 3, false⟩], []] } 1 2).map
    (fun r => (r.addr, r.len)) = [(0x10001080, 32), (0x100018C0, 32)] := by decide +kernel
theorem witness_RunsMeetTheirPixels : (planA.tileAt 1).trimLeft + (planA.tileAt 1).trimRight < (planA.tileAt 1).cols ∧
    min 40 ((planA.tileAt 1).x + 32) ≤ max 40 (planA.tileAt 1).x ∧ max 0 (planA.tileAt 1).x < min 64 ((planA.tileAt 1).x + 32) ∧
    (planA.runOf 0 0 0 64 (planA.tileAt 1)).map (·.start) = some (planA.pixelAddr 0 (planA.tileAt 1) 63 0) := by
  decide +kernel
/-- Two pixels of two bytes, mirrored: the second half of the run goes to the left pixel. -/
theorem witness_RunsMeetTheirPixels_fill :
    let q : FetchReq := ⟨0x10000042, 2, 2, 1, 3, true, 2⟩
    1 ≤ q.bpp ∧ 2 + [7, 8].length ≤ (q.xb - q.xa) * q.bpp ∧ q.xb * q.bpp ≤ (List.replicate 6 (0 : Byte)).length ∧
    q.fill 2 [7, 8] (List.replicate 6 0) = [0, 0, 7, 8, 0, 0] := by decide +kernel

/-! The uplink. -/

theorem witness_FrameStartsAndMissingFrames : quiet.uplink.frameStart = none ∧ (gathering []).uplink.frameStart ≠ none ∧
    (gathering []).uplink.locked = true ∧ (gathering []).uplink.badRun < 15 := by decide +kernel
theorem witness_FrameStartsAndMissingFrames_expiry :
    let d := { gathering [] with uplink := { (gathering []).uplink with badRun := 15, missingDue := some 0 } }
    d.uplink.missingDue = some 0 ∧ reached d.timing.now 0 = true ∧ ¬(d.uplink.locked = false ∨ d.uplink.badRun < 15) := by
  decide +kernel

/-- A frame of 254 bytes and their CRC, whose bits the second operand flips. -/
def framed (a : List Byte) (x : BitVec 16) : List Byte := a ++ leBytes 2 (crc16 a ^^^ x).toNat
theorem framed_crc (a : List Byte) (x : BitVec 16) (h : a.length = 254) : (framed a x).length = 256 ∧
    crc16 ((framed a x).take 254) = crc16 a ∧ leNat (((framed a x).drop 254).take 2) = (crc16 a ^^^ x).toNat ∧
    ((framed a x).drop 4).take 250 = a.drop 4 ∧ (framed a x).take 4 = a.take 4 := by
  have hl : (leBytes 2 (crc16 a ^^^ x).toNat).length = 2 := length_leBytes _ _
  refine ⟨by simp [framed, h], ?_, ?_, ?_, ?_⟩
  · rw [framed, List.take_left' h]
  · rw [framed, List.drop_left' h, List.take_of_length_le (Nat.le_of_eq hl), leNat_leBytes]
    exact Nat.mod_eq_of_lt (crc16 a ^^^ x).isLt
  · rw [framed, List.drop_append_of_le_length (by omega), List.take_left' (by rw [List.length_drop]; omega)]
  · rw [framed, List.take_append_of_le_length (by omega)]
theorem framed_good (a : List Byte) (h : a.length = 254) :
    (crc16 ((framed a 0).take 254)).toNat = leNat (((framed a 0).drop 254).take 2) := by
  rw [(framed_crc a 0 h).2.1, (framed_crc a 0 h).2.2.1]
  exact congrArg BitVec.toNat BitVec.xor_zero.symm
theorem framed_bad (a : List Byte) (h : a.length = 254) :
    (crc16 ((framed a 1).take 254)).toNat ≠ leNat (((framed a 1).drop 254).take 2) := by
  rw [(framed_crc a 1 h).2.1, (framed_crc a 1 h).2.2.1]
  intro e
  have := BitVec.eq_of_toNat_eq e
  have h0 := congrArg (fun v => v.getLsbD 0) this
  simp at h0
/-- `holdFrame`'s header and order, then zeros. -/
def holdArea : List Byte := [0x11, 0x0A, 0, 0, 0x13, 5, 22, 0, 3, 2, 1] ++ List.replicate 243 0
theorem holdArea_length : holdArea.length = 254 := by decide +kernel
theorem witness_UplinkFramesAreTaken_good : (framed holdArea 0).length = 256 ∧
    (crc16 ((framed holdArea 0).take 254)).toNat = leNat (((framed holdArea 0).drop 254).take 2) :=
  ⟨(framed_crc _ 0 holdArea_length).1, framed_good _ holdArea_length⟩
theorem witness_UplinkFramesAreTaken_bad : (framed holdArea 1).length = 256 ∧
    (crc16 ((framed holdArea 1).take 254)).toNat ≠ leNat (((framed holdArea 1).drop 254).take 2) :=
  ⟨(framed_crc _ 1 holdArea_length).1, framed_bad _ holdArea_length⟩
theorem witness_UplinkFramesAreTaken_order : (gathering []).uplink.frameStart = some 50 ∧
    (gathering []).uplink.locked = true ∧ (gathering []).uplink.lastSeq ≠ some 0x0A11 ∧
    ((framed holdArea 0).drop 4).take 250 = 0x13 :: 5 :: ([22, 0, 3, 2, 1] ++ 0 :: List.replicate 242 0) ∧
    [22, 0, 3, 2, 1].length = 5 ∧ orderLengthOk 0x13 5 = true := by
  rw [(framed_crc _ 0 holdArea_length).2.2.2.1]
  decide +kernel
theorem witness_UplinkFramesAreTaken_states :
    ({ gathering [] with uplink := { (gathering []).uplink with locked := false, goodRun := 2 } } : Dev).uplink.goodRun < 3 ∧
    3 ≤ ({ gathering [] with uplink := { (gathering []).uplink with locked := false, goodRun := 3 } } : Dev).uplink.goodRun ∧
    15 ≤ ({ gathering [] with uplink := { (gathering []).uplink with badRun := 15 } } : Dev).uplink.badRun ∧
    holdArea.take 4 = [0x11, 0x0A, 0, 0] ∧
    ({ gathering [] with uplink := { (gathering []).uplink with lastSeq := some 0x0A11 } } : Dev).uplink.lastSeq =
      some (BitVec.ofNat 16 (leNat [0x11, 0x0A])) ∧
    16 ≤ (gathering (List.replicate 16 ⟨0x15, [1, 0]⟩)).uplink.orders.length := by decide +kernel
theorem witness_OrdersAreHandledInTheirPlace_ends :
    ((framed holdArea 0).drop 4).take 250 = ([(0x13, [22, 0, 3, 2, 1])].flatMap fun o : Byte × List Byte =>
      o.1 :: BitVec.ofNat 8 o.2.length :: o.2) ++ List.replicate 243 0 ∧
    (List.replicate 243 (0 : Byte)).head? = some 0 := by
  rw [(framed_crc _ 0 holdArea_length).2.2.2.1]
  decide +kernel
/-- A CREDIT order, and then one that would run past the end of the order area. -/
def longArea : List Byte := [0x11, 0x0A, 0, 0, 0x03, 1, 7, 0x7F, 246] ++ List.replicate 245 0
theorem longArea_length : longArea.length = 254 := by decide +kernel
theorem witness_OrdersAreHandledInTheirPlace_overrun : (framed longArea 0).length = 256 ∧
    (crc16 ((framed longArea 0).take 254)).toNat = leNat (((framed longArea 0).drop 254).take 2) ∧
    ((framed longArea 0).drop 4).take 250 = ([(0x03, [7])].flatMap fun o : Byte × List Byte =>
      o.1 :: BitVec.ofNat 8 o.2.length :: o.2) ++ 0x7F :: 246 :: List.replicate 245 0 ∧
    (List.replicate 245 (0 : Byte)).length < (246#8).toNat := by
  refine ⟨(framed_crc _ 0 longArea_length).1, framed_good _ longArea_length, ?_⟩
  rw [(framed_crc _ 0 longArea_length).2.2.2.1]
  decide +kernel
theorem witness_OrdersAreHandledInTheirPlace_alone : quiet.replay.current = none ∧ quiet.feed.stop ≤ quiet.feed.start ∧
    quiet.feed.fifo.length + (List.replicate 240 (0 : Byte)).length ≤ 4096 := by decide +kernel
/-- A run of zeros that no evaluation unfolds. -/
@[irreducible] def zeros (n : Nat) : List Byte := List.replicate n 0
theorem zeros_length (n : Nat) : (zeros n).length = n := by
  unfold zeros
  exact List.length_replicate
theorem full_of (l m : List Byte) (hl : l.length = 4000) (hm : m.length = 97) :
    let d := { quiet with feed := { quiet.feed with fifo := l } }
    d.feed.fifo.length ≤ 4096 ∧ 4096 < d.feed.fifo.length + m.length := by
  show l.length ≤ 4096 ∧ 4096 < l.length + m.length
  omega
theorem witness_OrdersAreHandledInTheirPlace_full :
    let d := { quiet with feed := { quiet.feed with fifo := zeros 4000 } }
    d.feed.fifo.length ≤ 4096 ∧ 4096 < d.feed.fifo.length + (zeros 97).length :=
  full_of (zeros 4000) (zeros 97) (zeros_length _) (zeros_length _)

/-! Queued orders. -/

/-- The order queue holds an order that the executor can take: its bytes were written out from the order table. -/
def ordered (o : RawOrder) (d : Dev) : Dev := { d with uplink := { d.uplink with orders := [o] } }
theorem ready_holds (c : Instr) (o : RawOrder) (q : List Instr) (d : Dev) (h : decodeOrder o = some c)
    (hr : d.resetAsserted = false) (hx : d.uplink.executor = .idle) (hc : d.downlink.ctrl.length < 64) :
    Ready c ⟨ordered o d, q⟩ := ⟨hr, hx, hc, decide_eq_true h⟩
theorem witness_GateOrders : Ready (.gateRun 1) ⟨ordered ⟨0x10, [1, 0, 0, 0, 0]⟩ (queued 63 quiet), []⟩ ∧
    Ready (.gatePause 1) ⟨ordered ⟨0x10, [1, 0, 1, 0, 0]⟩ quiet, []⟩ ∧
    Ready (.gateStep 1) ⟨ordered ⟨0x10, [1, 0, 2, 0, 0]⟩ quiet, []⟩ ∧
    Ready (.gateMark 1 258) ⟨ordered ⟨0x10, [1, 0, 3, 2, 1]⟩ quiet, []⟩ ∧
    Ready (.gateUnknownAction 1 4) ⟨ordered ⟨0x10, [1, 0, 4, 0, 0]⟩ quiet, []⟩ := by
  refine ⟨?_, ?_, ?_, ?_, ?_⟩ <;> exact ready_holds _ _ _ _ (by decide +kernel) rfl rfl (by decide +kernel)
theorem witness_ReplayOrders : Ready (.replay 1 99 15 0 false) ⟨filling, []⟩ ∧ filling.plan.working = some workA ∧
    quiet.plan.working = none ∧ workA.plan.height ≤ (16#16).toNat ∧ (15#16).toNat < workA.plan.height ∧
    filling.replay.queue = [] ∧ filling.replay.current = none ∧ filling.ring.lookup 99 = none :=
  ⟨⟨rfl, rfl, by decide, rfl⟩, by decide +kernel⟩
/-- The last free entry goes to the REPLAY-END, and the RESPONSE is held. -/
theorem test_replay_gone_response_held : (after (.replay 1 99 15 0 false) (queued 63 filling)).map
    (fun d => (d.downlink.ctrl.drop 63, d.uplink.executor)) =
    some ([.replayEnd .gone 1 99 0], .responding (.response 0x11 1 .done [])) := by decide +kernel
theorem witness_ReplayOrders_present : Ready (.replay 1 6 15 0 false) ⟨filling, []⟩ ∧ filling.ring.lookup 6 = some 1 ∧
    (filling.ring.slot 1).state = .closed ∧ filling.ring.lookup 5 = some 0 ∧ (filling.ring.slot 0).state = .filling :=
  ⟨⟨rfl, rfl, by decide, rfl⟩, by decide +kernel⟩
theorem witness_ReplayOrders_full :
    let r : ReplayReq := ⟨1, 6, 0, 0, false, false⟩
    let d := { replayingAt .sending false with replay :=
      { (replayingAt .sending false).replay with queue := [r, r, r, r] } }
    4 ≤ d.replay.queue.length ∧ (replayingAt .sending false).replay.current ≠ none ∧
    (replayingAt .sending false).replay.queue.length < 4 := by decide +kernel
theorem witness_CancelOrders : Ready (.cancelCurrent 1) ⟨ordered ⟨0x12, [1, 0, 0]⟩ filling, []⟩ ∧
    Ready (.cancelAll 1) ⟨ordered ⟨0x12, [1, 0, 1]⟩ (replayingAt .sending false), []⟩ ∧
    filling.replay.current = none ∧ filling.replay.queue = [] ∧
    (replayingAt .sending false).replay.current.map (·.stage) = some .sending ∧
    (replayingAt .sending false).downlink.ctrl.length + (replayingAt .sending false).replay.queue.length < 64 :=
  ⟨ready_holds _ _ _ _ (by decide +kernel) rfl rfl (by decide),
   ready_holds _ _ _ _ (by decide +kernel) rfl rfl (by decide), by decide +kernel⟩
/-- A request in ENDING with two queued, and CANCEL ALL with only one entry free: the first ends, the next one stays in
ENDING, and the RESPONSE is held. -/
def requested : Dev :=
  { replayingAt (.ending .done) false with replay := { (replayingAt (.ending .done) false).replay with
      queue := [⟨6, 5, 0, 0, false, false⟩, ⟨7, 6, 0, 0, false, false⟩] } }
theorem witness_CancelOrders_ending : Ready (.cancelCurrent 1) ⟨ordered ⟨0x12, [1, 0, 0]⟩ requested, []⟩ ∧
    Ready (.cancelAll 1) ⟨ordered ⟨0x12, [1, 0, 1]⟩ requested, []⟩ ∧
    requested.replay.current.map (·.stage) = some (.ending .done) :=
  ⟨ready_holds _ _ _ _ (by decide +kernel) rfl rfl (by decide),
   ready_holds _ _ _ _ (by decide +kernel) rfl rfl (by decide), by decide +kernel⟩
theorem test_cancel_all_full : (after (.cancelAll 1) (queued 63 requested)).map
    (fun d => (d.downlink.ctrl.drop 63, d.replay.current.map (·.stage), d.replay.queue.map (·.cancelled), d.uplink.executor)) =
    some ([.replayEnd .done 5 6 4], some (.ending .cancelled), [true], .responding (.response 0x12 1 .done [])) := by
  decide +kernel
theorem witness_HoldAndReleaseOrders_hold : Ready (.hold 1 6) ⟨filling, []⟩ ∧ filling.ring.lookup 7 = none ∧
    filling.ring.lookup 6 = some 1 ∧ filling.plan.working = some workA ∧ (filling.ring.slot 1).held = false ∧
    filling.ring.holdCount < workA.plan.slots - 3 ∧ workA.plan.slots - 3 ≤ crowded.holdCount ∧
    crowded.lookup 8 = some 3 ∧ (crowded.slot 3).held = true := ⟨⟨rfl, rfl, by decide, rfl⟩, by decide +kernel⟩
theorem witness_HoldAndReleaseOrders_release : Ready (.release 1 8) ⟨{ filling with ring := crowded }, []⟩ ∧
    crowded.slots = crowded.slots.take 3 ++ { slotOf .closed 8 with held := true } :: crowded.slots.drop 4 ∧
    (∀ y ∈ crowded.slots.take 3, y.state = .empty ∨ y.frame ≠ 8) ∧
    (∀ x ∈ crowded.slots, x.state = .empty ∨ x.frame ≠ 11) ∧ (crowded.slot 0).held = false :=
  ⟨⟨rfl, rfl, by decide, rfl⟩, by decide +kernel⟩
theorem witness_HoldAndReleaseOrders_releaseAll : Ready (.releaseAll 1) ⟨ordered ⟨0x14, [1, 0, 0, 0, 0, 1]⟩ filling, []⟩ ∧
    (slotOf .closed 6).state = .closed ∧ (slotOf .closed 6).live = false ∧ (slotOf .closed 6).replay = false :=
  ⟨ready_holds _ _ _ _ (by decide +kernel) rfl rfl (by decide), by decide +kernel⟩
/-- CLEAR with three requests; with no context bound; with room for the three entries, and without. -/
theorem witness_ClearOrders : Ready (.clear 1) ⟨ordered ⟨0x15, [1, 0]⟩ requested, []⟩ ∧
    requested.plan.working = some workA ∧ quiet.tracker.ctx0 = none ∧ quiet.tracker.ctx1 = none ∧
    requested.downlink.ctrl.length + requested.replay.ends.length ≤ 64 ∧
    ¬(queued 62 requested).downlink.ctrl.length + requested.replay.ends.length ≤ 64 :=
  ⟨ready_holds _ _ _ _ (by decide +kernel) rfl rfl (by decide), by decide +kernel⟩
theorem test_clear_ends_requests : (after (.clear 1) requested).map (fun d => (d.downlink.ctrl, d.replay.current)) =
    some ([.replayEnd .done 5 6 4, .replayEnd .cancelled 6 5 0, .replayEnd .cancelled 7 6 0, .response 0x15 1 .done []],
      none) := by decide +kernel
theorem test_clear_closes_held : (after (.clear 1) { fronted inRow3 (ended .finished) with ring := { filling.ring with
    slots := filling.ring.slots.set 0 { slotOf .filling 5 with held := true }, holdCount := 1 } }).map
    (fun d => ((d.ring.slot 0).state, (d.ring.slot 0).outcomes, (d.ring.slot 0).damage, d.ring.age)) =
    some (.closed, [.stalled, .finished], [[⟨3, 16, false⟩], []], [0]) := by decide +kernel
theorem witness_PagePointAndWatchClear : Ready (.page 1 1023) ⟨ordered ⟨0x30, [1, 0, 0xFF, 3]⟩ quiet, []⟩ ∧
    Ready (.point 1 0x7FFFFFFF) ⟨quiet, []⟩ ∧ Ready (.watchClear 1 7) ⟨ordered ⟨0x21, [1, 0, 7]⟩ quiet, []⟩ :=
  ⟨ready_holds _ _ _ _ (by decide +kernel) rfl rfl (by decide), ⟨rfl, rfl, by decide, rfl⟩,
   ready_holds _ _ _ _ (by decide +kernel) rfl rfl (by decide)⟩
theorem witness_MemoryOrdersAreChecked : Ready (.read 1 0x010203 8) ⟨ordered ⟨0x32, [1, 0, 3, 2, 1, 8]⟩ reachable, []⟩ ∧
    Ready (.write 1 0x010203 [0xAA]) ⟨ordered ⟨0x33, [1, 0, 3, 2, 1, 0xAA]⟩ reachable, []⟩ ∧
    Ready (.readNext 1 8) ⟨ordered ⟨0x34, [1, 0, 8]⟩ reachable, []⟩ ∧
    Ready (.writeNext 1 [0xAA]) ⟨ordered ⟨0x35, [1, 0, 0xAA]⟩ reachable, []⟩ ∧
    Ready (.maskWrite 1 0 [0xAA] [0xF0]) ⟨ordered ⟨0x36, [1, 0, 0, 0, 0, 0xAA, 0xF0]⟩ reachable, []⟩ ∧
    Ready (.watchSet 1 3 64 2 1) ⟨ordered ⟨0x20, [1, 0, 3, 64, 0, 0, 0, 0, 2, 1]⟩ reachable, []⟩ := by
  refine ⟨?_, ?_, ?_, ?_, ?_, ?_⟩ <;> exact ready_holds _ _ _ _ (by decide +kernel) rfl rfl (by decide)

/-- A memory order in hand whose last request is in flight with tag 3. -/
def executing (order : MemOrder) (use : RemoteUse) (isWrite : Bool) (len : Nat) : Dev :=
  waits 3 (.remote use) isWrite len (queued 63 { reachable with
    uplink := { reachable.uplink with executor := .executing 0x32 5 order } })
theorem witness_MemoryOrdersEnd_read : (executing (.read 2) .read false 2).mem.record 3 =
    some { tag := 3, owner := .remote .read, isWrite := false, len := 2, handle := [] } ∧
    (executing (.read 2) .read false 2).downlink.ctrl.length < 64 ∧
    (executing (.readNext 2) .read false 2).uplink.executor = .executing 0x32 5 (.readNext 2) := by decide +kernel
theorem witness_MemoryOrdersEnd_write : (executing (.write 2) .write true 2).mem.record 3 =
    some { tag := 3, owner := .remote .write, isWrite := true, len := 2, handle := [] } ∧
    (executing (.writeNext 2) .write true 2).uplink.executor = .executing 0x32 5 (.writeNext 2) := by decide +kernel
theorem witness_MemoryOrdersEnd_mask : (executing (.maskWrite 64 [1] [1] (some [2])) .maskWrite true 1).mem.record 3 =
    some { tag := 3, owner := .remote .maskWrite, isWrite := true, len := 1, handle := [] } ∧
    (executing (.maskWrite 64 [1] [1] (some [2])) .maskWrite true 1).uplink.executor =
      .executing 0x32 5 (.maskWrite 64 [1] [1] (some [2])) := by decide +kernel
/-- The control queue full, and one short of it. -/
theorem witness_MemoryOrdersEnd_full : (queued 64 (executing (.read 2) .read false 2)).downlink.ctrl.length = 64 ∧
    (executing (.read 2) .read false 2).downlink.ctrl.length = 63 := by decide +kernel
theorem test_response_held : (after (.remoteAccessDone 3 (.data [1, 2])) (queued 64 (executing (.read 2) .read false 2))).map
    (fun d => (d.uplink.executor, d.downlink.ctrl.length)) = some (.responding (.response 0x32 5 .done [1, 2]), 64) := by
  decide +kernel
theorem witness_FirstReadsEnd_mask : (executing (.maskWrite 64 [1] [1] none) .maskRead false 1).mem.record 3 =
    some { tag := 3, owner := .remote .maskRead, isWrite := false, len := [2].length, handle := [] } ∧
    (executing (.maskWrite 64 [1] [1] none) .maskRead false 1).uplink.executor =
      .executing 0x32 5 (.maskWrite 64 [1] [1] none) := by decide +kernel
/-- The seed arrives in a mode, after writes brought the second byte, and with these entries in the control queue. -/
def seeded (mode : WatchMode) (known : Byte) (ctrl : List Entry) : Dev :=
  { seeding with
    uplink := { seeding.uplink with executor := .executing 0x20 5 (.watchSet 3 64 2 mode) }
    watch := { seeding.watch with seeding := some ⟨3, 64, 2, mode, [none, some known], 1, some 70⟩ }
    downlink := { seeding.downlink with ctrl := ctrl } }
theorem witness_FirstReadsEnd_hit : (seeded .every 9 []).mem.record 3 =
      some { tag := 3, owner := .remote .seed, isWrite := false, len := [1, 2].length, handle := [] } ∧
    (seeded .every 9 []).uplink.executor = .executing 0x20 5 (.watchSet 3 64 2 .every) ∧
    (seeded .every 9 []).watch.seeding = some ⟨3, 64, 2, .every, [none, some 9], 1, some 70⟩ ∧
    (queued 47 (seeded .every 9 [])).downlink.ctrl.length ≤ 47 ∧ 47 < (queued 48 (seeded .every 9 [])).downlink.ctrl.length ∧
    (queued 48 (seeded .every 9 [])).downlink.ctrl.any (Entry.isWatch 3) = false ∧
    [Entry.watch 3 [4, 4] 7 1].any (Entry.isWatch 3) = true ∧
    List.zipWith (fun (k : Option Byte) b => k.getD b) [none, some 2] [1, 2] = [1, 2] := by decide +kernel
theorem test_seed_judged :
    let shown (m : WatchMode) (k : Byte) (ctrl : List Entry) := (after (.watchSeedDone 3 (.data [1, 2])) (seeded m k ctrl)).map
      fun d => (d.watch.entry 3, d.downlink.ctrl, d.counters.droppedEntries)
    let full := List.replicate 48 (Entry.echo 0 0)
    let answer := Entry.response 0x20 5 .done []
    shown .change 2 [] = some (some ⟨64, 2, .change, [1, 2], [1, 2]⟩, [answer], 0) ∧
    shown .once 9 [.watch 3 [4, 4] 7 1] = some (none, [.watch 3 [1, 9] 70 2, answer], 0) ∧
    shown .change 9 full = some (some ⟨64, 2, .change, [1, 9], [1, 2]⟩, full ++ [answer], 1) := by decide +kernel
theorem witness_FirstReadsEnd_quiet : (Seeding.fresh 3 64 2 .change).hits = 0 ∧
    (Seeding.fresh 3 64 2 .change).known.length = 2 ∧ seeding.downlink.ctrl.length < 64 := by decide +kernel
theorem witness_WatchHitsAreReported : sequence1.watch.entry 2 =
    some ⟨0xC0001008, 8, .every, List.replicate 8 0, List.replicate 8 0⟩ ∧
    (queued 47 sequence1).downlink.ctrl.any (Entry.isWatch 2) = false ∧ (queued 47 sequence1).downlink.ctrl.length ≤ 47 ∧
    47 < (queued 48 sequence1).downlink.ctrl.length ∧ (queued 48 sequence1).downlink.ctrl.any (Entry.isWatch 2) = false ∧
    [Entry.watch 2 [1] 0 1].any (Entry.isWatch 2) = true := by decide +kernel
/-- A CHANGE entry whose known value a write leaves as it is. -/
theorem witness_WatchHitsAreReported_unchanged : ((WatchEntry.mk 64 1 .change [5] [5]).mode = .change) ∧
    ((List.range 1).map fun k => if 64 ≤ 64 + k ∧ 64 + k < 64 + [(5 : Byte)].length then [(5 : Byte)].getD (64 + k - 64) 0
      else [(5 : Byte)].getD k 0) = [5] := by decide +kernel

/-! Offers, fetches, cells, drains. -/

theorem witness_HeldEntriesAreOffered :
    let d := { queued 64 quiet with uplink := { quiet.uplink with executor := .responding (.response 0x10 5 .done []) } }
    d.resetAsserted = false ∧ d.uplink.executor = .responding (.response 0x10 5 .done []) ∧ ¬ d.downlink.ctrl.length < 64 ∧
    (replayingAt (.ending .done) false).replay.current.map (·.stage) = some (.ending .done) ∧
    (replayingAt (.ending .done) false).replay.queue = [] ∧
    (queued 64 (replayingAt (.ending .done) false)).downlink.ctrl.length = 64 := by decide +kernel
/-- No request is current, and the next one is cancelled, for an absent frame, for the FILLING or for the CLOSED one. -/
def nextRequest (frame : FrameNo) (cancelled : Bool) : Dev :=
  { filling with replay := { filling.replay with queue := [⟨6, frame, 2, 3, false, cancelled⟩, ⟨7, 99, 0, 0, false, false⟩] } }
theorem witness_HeldEntriesAreOffered_next : (nextRequest 6 true).replay.current = none ∧
    (nextRequest 6 true).replay.queue = ⟨6, 6, 2, 3, false, true⟩ :: [⟨7, 99, 0, 0, false, false⟩] ∧
    (nextRequest 99 false).ring.lookup 99 = none ∧ (nextRequest 5 false).ring.lookup 5 = some 0 ∧
    ((nextRequest 5 false).ring.slot 0).state = .filling ∧ (nextRequest 6 false).ring.lookup 6 = some 1 ∧
    ((nextRequest 6 false).ring.slot 1).state = .closed ∧ (nextRequest 6 false).plan.working = some workA := by decide +kernel
/-- The request in ENDING ends, and of the two behind it the first waits for the close of its frame. -/
theorem test_next_request_starts : (after .replayEndOffer requested).map
    (fun d => (d.downlink.ctrl, d.replay.current.map fun c => (c.req.tag, c.stage, c.slot), d.replay.queue.length)) =
    some ([.replayEnd .done 5 6 4], some (6, .waitingClose, 0), 1) := by decide +kernel
theorem test_two_requests_end : (after .replayEndOffer (nextRequest 6 true)).map
    (fun d => (d.downlink.ctrl, d.replay.current, d.replay.queue)) =
    some ([.replayEnd .cancelled 6 6 0, .replayEnd .gone 7 99 0], none, []) := by decide +kernel
theorem witness_FetchesBegin_test : testSource.live.active = some 1 ∧ testSource.live.fetcher.bufA.state = .empty ∧
    testSource.live.fetcher.fetching = false ∧ testSource.live.handed < planA.height ∧
    testSource.plan.working.map (fun w => (w.plan.order, w.plan.source)) = some (.raster, .test) := by decide +kernel
/-- The CLOSED frame 6 under SENSOR in RASTER, and in ARRIVAL order. -/
def reading (o : LiveOrder) : Dev :=
  { filling with
    plan := { filling.plan with working := some ⟨{ planA with order := o }, 1⟩ }
    live := { filling.live with active := some 1, strips := [⟨0, 16⟩] } }
theorem witness_FetchesBegin_live : (reading .raster).live.active = some 1 ∧ (reading .raster).sendable planA 1 0 = true ∧
    (reading .raster).live.fetcher.bufA.state = .empty ∧ (reading .raster).live.handed < planA.height ∧
    (reading .arrival).arrivalChoice { planA with order := .arrival } 1 = some 0 := by decide +kernel
/-- Buffer A is READY and B EMPTY; A is FETCHING; both are taken. -/
theorem witness_FetchesBegin_buffers :
    let f (a b : BufState) : Fetcher := { Fetcher.vacant with
      bufA := { LineBuf.vacant with state := a }, bufB := { LineBuf.vacant with state := b } }
    (f .ready .empty).vacancy = some .b ∧ (f .fetching .empty).vacancy = none ∧ (f .sending .ready).vacancy = none := by
  decide +kernel
theorem witness_FetchesBegin_replay : (replayingAt .sending false).replay.current =
    some ⟨⟨5, 6, 0, 0, false, false⟩, .sending, 1, true, 0, 15, 4⟩ ∧
    (replayingAt .sending false).replay.fetcher.bufA.state = .empty ∧
    (replayingAt .sending false).replay.fetcher.fetching = false ∧ (replayingAt .sending true).replay.credit = 0 := by
  decide +kernel
theorem witness_FetchResponsesFillLines :
    let d := { fetching with live := { fetching.live with handed := 16 } }
    d.mem.record 3 = some { tag := 3, owner := .fetch .live .a ⟨0x10000040, 4, 0, 0, 4, true, 1⟩, isWrite := false, len := 4
                            handle := [] } ∧
    d.plan.working = some workA ∧ workA.plan.height ≤ d.live.handed ∧ (d.live.fetcher.buf .a).state = .fetching ∧
    (d.live.fetcher.buf .a).discard = false ∧ 1 ≤ (d.live.fetcher.buf .a).outstanding := by decide +kernel
theorem witness_FetchResponsesFillLines_discarded :
    ({ fetching.live.fetcher.bufA with discard := true } : LineBuf).state = .fetching ∧
    ({ fetching.live.fetcher.bufA with discard := true } : LineBuf).discard = true := by decide +kernel
/-- A reader's fetcher with a READY line of two cells at the head. -/
def lineOf (l : List Byte) : Fetcher :=
  { Fetcher.vacant with order := [.a], bufA := { LineBuf.vacant with state := .ready, slot := 1, data := l } }
def lineReady : Fetcher := lineOf (zeros 1025)
theorem cells_of (l : List Byte) (hl : l.length = 1025) :
    ((lineOf l).buf .a).nextCell + 1 ≠ (((lineOf l).buf .a).data.length + 1023) / 1024 := by
  show (0 : Nat) + 1 ≠ (l.length + 1023) / 1024
  omega
theorem witness_CellsAreSent_live :
    let d := { queued 31 filling with live := { filling.live with fetcher := lineReady } }
    reached d.timing.now d.downlink.nextBoundary = true ∧ d.live.fetcher.order = .a :: [] ∧
    (d.live.fetcher.buf .a).state = .ready ∧ d.downlink.sinceControl ≠ 16 ∧ d.downlink.ctrl.length < 32 := by decide +kernel
theorem witness_CellsAreSent_cells : (lineReady.buf .a).nextCell + 1 ≠ ((lineReady.buf .a).data.length + 1023) / 1024 := by
  unfold lineReady
  exact cells_of (zeros 1025) (zeros_length _)
/-- A line of one cell: its last. -/
theorem last_cell (l : List Byte) (hl : l.length = 1024) :
    ((lineOf l).buf .a).nextCell + 1 = (((lineOf l).buf .a).data.length + 1023) / 1024 := by
  show (0 : Nat) + 1 = (l.length + 1023) / 1024
  omega
theorem witness_CellsAreSent_last : ((lineOf (zeros 1024)).buf .a).nextCell + 1 =
    (((lineOf (zeros 1024)).buf .a).data.length + 1023) / 1024 ∧ ((lineOf (zeros 1024)).buf .a).last = false ∧
    filling.plan.working = some workA ∧ (grouped (some 1) none).live.waiting = none ∧
    (grouped (some 1) (some 0)).live.waiting = some 0 ∧ (replayingAt .sending false).replay.queue = [] :=
  ⟨last_cell _ (zeros_length _), rfl, rfl, rfl, rfl, rfl⟩
/-- Rank 1 over a READY line; a held RESPONSE; a held REPLAY-END. -/
theorem witness_CellsAreSent_rank1 :
    let d := { queued 1 filling with
      live := { filling.live with fetcher := lineReady }, downlink := { (queued 1 filling).downlink with sinceControl := 16 } }
    d.downlink.ctrl ≠ [] ∧ d.downlink.sinceControl = 16 ∧ d.live.fetcher.offers = true ∧ d.replay.queue = [] ∧
    (queued 32 quiet).downlink.ctrl.length = 32 ∧
    ({ quiet with uplink := { quiet.uplink with executor := .responding (.response 0x10 5 .done []) } } : Dev).uplink.executor =
      .responding (.response 0x10 5 .done []) ∧
    (replayingAt (.ending .done) false).replay.current.map (·.stage) = some (.ending .done) := by decide +kernel
/-- Rank 1 with a REPLAY-END held, two requests behind it and a held RESPONSE. -/
theorem witness_CellsAreSent_behind :
    let d := { queued 64 requested with uplink := { requested.uplink with executor := .responding (.response 0x10 5 .done []) } }
    d.downlink.ctrl ≠ [] ∧ 32 ≤ d.downlink.ctrl.length ∧ d.replay.queue.length = 2 ∧
    reached d.timing.now d.downlink.nextBoundary = true := by decide +kernel
theorem witness_CellsAreSent_replay :
    let d := { filling with replay := { filling.replay with fetcher := lineReady } }
    d.live.fetcher.offers = false ∧ d.replay.fetcher.order = .a :: [] ∧ (d.replay.fetcher.buf .a).state = .ready ∧
    d.downlink.ctrl = [] := by decide +kernel
theorem witness_CellsAreSent_control : reached quiet.timing.now quiet.downlink.nextBoundary = true ∧
    quiet.downlink.ctrl = [] ∧ (queued 1 quiet).downlink.ctrl ≠ [] ∧ quiet.live.fetcher.order = [] ∧
    quiet.replay.fetcher.order = [] ∧ quiet.replay.current = none ∧ quiet.replay.queue = [] ∧
    quiet.uplink.executor = .idle := by decide +kernel
theorem witness_CellsSinceControl : exec .cellBoundary ⟨quiet, []⟩ = .next ⟨quiet.sendCell .fill quiet.fillCell, []⟩ ∧
    quiet.resetAsserted = false ∧ quiet.downlink.sinceControl ≤ 16 := ⟨rfl, by decide +kernel⟩
theorem witness_DrainWrites_begin : (nearEnd .none).feed.drain = .none ∧ (nearEnd .none).feed.start < (nearEnd .none).feed.stop ∧
    1 ≤ (nearEnd .none).feed.drainLen ∧ (nearEnd (.presented 0x20000FF6 10)).feed.drain ≠ .none := by decide +kernel
theorem witness_DrainWrites_done :
    let d := waits 3 .feed true 10 { nearEnd (.granted 10 false) with feed := { (nearEnd (.granted 10 false)).feed with
      fifo := [] } }
    d.mem.record 3 = some { tag := 3, owner := .feed, isWrite := true, len := 10, handle := [] } ∧ d.feed.fifo = [] ∧
    d.feed.drain = .granted 10 false ∧ d.feed.producer + 10 = d.feed.stop := by decide +kernel
theorem witness_DrainWrites_stale : (nearEnd (.granted 10 true)).feed.drain = .granted 10 true := rfl

end Sys2Proof.Tests
end

section
/-! SUPPORT. The family 05_the_frame_ring: the slot and the number a capture chooses, the GATE orders, HOLD and RELEASE. -/

namespace Sys2Proof.Machine

/-! ### The slot a capture chooses (R82) -/

theorem Slot.reusable_iff (x : Slot) :
    x.reusable = true ↔ x.state = .closed ∧ x.held = false ∧ x.live = false ∧ x.replay = false := by
  simp [Slot.reusable, and_assoc]

theorem Slot.reusable_eq_false_iff (x : Slot) :
    x.reusable = false ↔ x.state ≠ .closed ∨ x.held = true ∨ x.live = true ∨ x.replay = true := by
  simp only [← Bool.not_eq_true, Slot.reusable_iff, not_and_or, not_not, ne_eq]

/-- What a choice can be: the lowest EMPTY slot, or, with none EMPTY, the first reusable one of the age order, or, with
none of these either, no slot (R82). -/
theorem Ring.choose_cases (r : Ring) (k : Nat) :
    (∃ s, r.choose k = some s ∧ s < k ∧ (r.slot s).state = .empty ∧ ∀ u, u < s → (r.slot u).state ≠ .empty) ∨
    ((∀ u, u < k → (r.slot u).state ≠ .empty) ∧
      ((∃ s l m, r.choose k = some s ∧ (r.slot s).reusable = true ∧ r.age = l ++ s :: m ∧
        ∀ u ∈ l, (r.slot u).reusable = false) ∨
      (r.choose k = none ∧ ∀ u ∈ r.age, (r.slot u).reusable = false))) := by
  unfold Ring.choose
  cases hk : (List.range k).find? fun s => decide ((r.slot s).state = .empty) with
  | some s =>
    obtain ⟨empty, mem, least⟩ := List.find?_range_eq_some.mp hk
    exact .inl ⟨s, rfl, by simpa using mem, by simpa using empty, by simpa using least⟩
  | none =>
    refine .inr ⟨by simpa using hk, ?_⟩
    cases ha : r.age.find? fun s => (r.slot s).reusable with
    | some s =>
      obtain ⟨reusable, l, m, age, before⟩ := List.find?_eq_some_iff_append.mp ha
      exact .inl ⟨s, l, m, rfl, reusable, age, by simpa using before⟩
    | none => exact .inr ⟨rfl, by simpa using ha⟩

/-! ### The number a slot is given (R84) -/

theorem Ring.carried_iff (r : Ring) (s : Nat) (f : FrameNo) :
    r.carried s f = true ↔
      ∃ u, u < r.slots.length ∧ u ≠ s ∧ (r.slot u).state ≠ .empty ∧ (r.slot u).frame = f := by
  simp [Ring.carried, and_assoc]

/-- A slot that is not EMPTY stands in the table. -/
theorem Ring.lt_length_of_not_empty {r : Ring} {u : Nat} (h : (r.slot u).state ≠ .empty) : u < r.slots.length := by
  by_contra beyond
  have vacant : r.slot u = .vacant := List.getD_eq_default _ _ (not_lt.mp beyond)
  exact h (by rw [vacant]; rfl)

/-- The search stops after `n` carried numbers, at one not carried, if the fuel lasts. -/
theorem Ring.freeNumber_spec (r : Ring) (s fuel : Nat) (f : FrameNo) :
    ∃ n, n ≤ fuel ∧ r.freeNumber s fuel f = f + BitVec.ofNat 24 n ∧
      (∀ j, j < n → r.carried s (f + BitVec.ofNat 24 j) = true) ∧
      (n < fuel → r.carried s (f + BitVec.ofNat 24 n) = false) := by
  induction fuel generalizing f with
  | zero => exact ⟨0, le_rfl, by simp [Ring.freeNumber], by simp, by simp⟩
  | succ fuel ih =>
    cases hc : r.carried s f with
    | false => exact ⟨0, by omega, by simp [Ring.freeNumber, hc], by simp, by simp [hc]⟩
    | true =>
      obtain ⟨n, hn, result, run, free⟩ := ih (f + 1)
      have shift (j : Nat) : f + 1 + BitVec.ofNat 24 j = f + BitVec.ofNat 24 (j + 1) := by
        rw [BitVec.ofNat_add, BitVec.add_assoc, BitVec.add_comm 1]; rfl
      refine ⟨n + 1, by omega, by rw [Ring.freeNumber, if_pos hc, result, shift], fun j hj => ?_, fun h => ?_⟩
      · cases j with
        | zero => simpa using hc
        | succ j => rw [← shift]; exact run j (by omega)
      · rw [← shift]; exact free (by omega)

/-- Pigeonhole: a run of carried numbers is no longer than the table, since each slot carries one number. -/
theorem Ring.carried_run_le (r : Ring) (s n : Nat) (f : FrameNo) (hn : n < 2 ^ 24)
    (run : ∀ j, j < n → r.carried s (f + BitVec.ofNat 24 j) = true) : n ≤ r.slots.length := by
  have carrier (j : Fin n) : ∃ u : Fin r.slots.length, (r.slot u).frame = f + BitVec.ofNat 24 j := by
    obtain ⟨u, hu, -, -, frame⟩ := (r.carried_iff s _).mp (run j j.isLt)
    exact ⟨⟨u, hu⟩, frame⟩
  choose slotOf frame_slotOf using carrier
  have injective : Function.Injective slotOf := by
    intro i j same
    have sum_eq : f + BitVec.ofNat 24 i = f + BitVec.ofNat 24 j := by rw [← frame_slotOf, ← frame_slotOf, same]
    have val_eq : i.val % 2 ^ 24 = j.val % 2 ^ 24 := by
      simpa using congrArg BitVec.toNat ((BitVec.add_right_inj f).mp sum_eq)
    exact Fin.ext (by rwa [Nat.mod_eq_of_lt (by omega), Nat.mod_eq_of_lt (by omega)] at val_eq)
  simpa using Fintype.card_le_of_injective slotOf injective

/-- The number of a slot's frame: the fuel suffices, so it is the first one from the counter on that no other slot
carries. -/
theorem Ring.frameFor_spec (r : Ring) (s : Nat) (h : r.slots.length + 1 < 2 ^ 24) :
    r.carried s (r.frameFor s) = false ∧
    ∀ j, j < (r.frameFor s - r.frameCounter).toNat → r.carried s (r.frameCounter + BitVec.ofNat 24 j) = true := by
  obtain ⟨n, hn, result, run, free⟩ := r.freeNumber_spec s (r.slots.length + 1) r.frameCounter
  have short : n ≤ r.slots.length := r.carried_run_le s n _ (by omega) run
  have number : r.frameFor s = r.frameCounter + BitVec.ofNat 24 n := result
  have distance : (r.frameFor s - r.frameCounter).toNat = n := by
    rw [number, BitVec.add_comm, BitVec.add_sub_cancel, BitVec.toNat_ofNat, Nat.mod_eq_of_lt (by omega)]
  rw [distance, number]
  exact ⟨free (by omega), run⟩

/-- Settles O32: the cases of the choice, and the search for the number, whose fuel suffices for 32 slots. -/
theorem slotAndNumberOfACapture : Obligations.SlotAndNumberOfACapture := by
  intro r k hlen _
  refine ⟨fun s chosen => ?chosen, fun none_chosen => ?none, fun s _ => ⟨fun u hu occupied same => ?free,
    fun j hj => ?first⟩⟩
  case chosen =>
    rcases r.choose_cases k with ⟨t, ht, lowest⟩ | ⟨full, ⟨t, l, m, ht, reusable, age, before⟩ | ⟨ht, -⟩⟩
    · obtain rfl : t = s := by simpa [ht] using chosen
      exact .inl lowest
    · obtain rfl : t = s := by simpa [ht] using chosen
      obtain ⟨closed, unheld, noLive, noReplay⟩ := (Slot.reusable_iff _).mp reusable
      exact .inr ⟨full, closed, unheld, noLive, noReplay, l, m, age,
        fun u hu => (Slot.reusable_eq_false_iff _).mp (before u hu)⟩
    · simp [ht] at chosen
  case none =>
    rcases r.choose_cases k with ⟨t, ht, -⟩ | ⟨full, ⟨t, l, m, ht, -⟩ | ⟨-, unusable⟩⟩
    · simp [ht] at none_chosen
    · simp [ht] at none_chosen
    · exact ⟨full, fun u hu => (Slot.reusable_eq_false_iff _).mp (unusable u hu)⟩
  case free =>
    have uncarried := (r.frameFor_spec s (by omega)).1
    have carried := (r.carried_iff s _).mpr ⟨u, r.lt_length_of_not_empty occupied, hu, occupied, same⟩
    simp [uncarried] at carried
  case first =>
    obtain ⟨u, -, carrier⟩ := (r.carried_iff s _).mp ((r.frameFor_spec s (by omega)).2 j hj)
    exact ⟨u, carrier⟩

/-! ### A taken order -/

/-- An order taken and answered in one event: its work gives the block `e`, up to the order's leaving its queue
(R170, R171). -/
theorem Dev.takeOrder_respond {c : Instr} {d e : Dev} {q : List Instr} {f : Dev → Dev} {kind : Byte} {tag : Tag}
    {st : Status} {data : List Byte} (h : Ready c ⟨d, q⟩) (hf : f d.popOrder = e.popOrder.respond kind tag st data) :
    State.run (Dev.takeOrder c f) ⟨d, q⟩ = .next ⟨e.answered kind tag st data, q⟩ := by
  rw [Dev.takeOrder_of_ready f h, hf, Dev.respond_popOrder]

/-! ### The gate orders (section 5.4) -/

/-- Setting the gate to the state it is in changes nothing. -/
theorem Dev.setGate_self {d : Dev} {g : Gate} (h : d.ring.gate = g) : d.setGate g = d := by subst h; rfl

/-- R91's table of states and answers is `Gate.step`. -/
theorem exec_gateStep_of_ready {d : Dev} {q : List Instr} {tag : Tag} (h : Ready (.gateStep tag) ⟨d, q⟩) :
    exec (.gateStep tag) ⟨d, q⟩ =
      .next ⟨(d.setGate d.ring.gate.step.1).answered 0x10 tag d.ring.gate.step.2 [], q⟩ :=
  Dev.takeOrder_respond h rfl

/-- R92's table of states and answers is `Gate.mark`; a MARK that is not DONE answers without data. -/
theorem exec_gateMark_of_ready {d : Dev} {q : List Instr} {tag : Tag} {n : BitVec 16}
    (h : Ready (.gateMark tag n) ⟨d, q⟩) :
    exec (.gateMark tag n) ⟨d, q⟩ =
      .next ⟨(d.setGate (d.ring.gate.mark n).1).answered 0x10 tag (d.ring.gate.mark n).2
        (if (d.ring.gate.mark n).2 = .done then d.ring.lastStartedData else []), q⟩ :=
  Dev.takeOrder_respond h rfl

/-- STEP: a gate in STEPPING stays and is BUSY; any other enters STEPPING and is DONE (R91). -/
theorem Dev.gateStep_answer (tag : Tag) (d : Dev) :
    (d.setGate d.ring.gate.step.1).answered 0x10 tag d.ring.gate.step.2 [] =
      if d.ring.gate = .stepping then d.answered 0x10 tag .busy []
      else (d.setGate .stepping).answered 0x10 tag .done [] := by
  cases hg : d.ring.gate with
  | stepping => simp [Gate.step, Dev.setGate_self hg]
  | running | countdown n | paused => simp [Gate.step]

/-- MARK: only a gate in RUNNING takes it, and only then the answer carries data (R92). -/
theorem Dev.gateMark_answer (tag : Tag) (n : BitVec 16) (d : Dev) :
    (d.setGate (d.ring.gate.mark n).1).answered 0x10 tag (d.ring.gate.mark n).2
        (if (d.ring.gate.mark n).2 = .done then d.ring.lastStartedData else []) =
      match d.ring.gate with
      | .running => (d.setGate (if n = 0 then .paused else .countdown n)).answered 0x10 tag .done d.ring.lastStartedData
      | .countdown _ => d.answered 0x10 tag .busy []
      | .stepping => d.answered 0x10 tag .busy []
      | .paused => d.answered 0x10 tag .invalid [] := by
  cases hg : d.ring.gate with
  | running => simp [Gate.mark]
  | countdown m | stepping | paused => simp [Gate.mark, Dev.setGate_self hg]

/-- Settles O45: each order is taken and answered in one event; STEP and MARK by the state of the gate. -/
theorem gateOrders : Obligations.GateOrders := by
  intro d q tag n action
  refine ⟨fun h => ?run, fun h => ?pause, fun h => ?step, fun h => ?mark, fun h => ?unknown⟩
  case run => exact Dev.takeOrder_respond (e := d.setGate .running) h rfl
  case pause => exact Dev.takeOrder_respond (e := d.setGate .paused) h rfl
  case step => rw [exec_gateStep_of_ready h, Dev.gateStep_answer]; rfl
  case mark => rw [exec_gateMark_of_ready h, Dev.gateMark_answer]; rfl
  case unknown => exact Dev.takeOrder_respond (e := d) h rfl

/-! ### Holds (section 5.5) -/

/-- An order whose work gives a block and a status, taken and answered with that status (R170, R171). -/
theorem Dev.takeOrder_status {c : Instr} {d e : Dev} {q : List Instr} {work : Dev → Dev × Status} {kind : Byte}
    {tag : Tag} {st : Status} (h : Ready c ⟨d, q⟩) (hw : work d.popOrder = (e.popOrder, st)) :
    State.run (Dev.takeOrder c fun x => (work x).1.respond kind tag (work x).2 []) ⟨d, q⟩ =
      .next ⟨e.answered kind tag st [], q⟩ :=
  Dev.takeOrder_respond h (by rw [hw])

section
variable {d : Dev} {f : FrameNo} {i : Nat}

theorem Dev.holdFrame_of_absent (h : d.ring.lookup f = none) : d.holdFrame f = (d, .gone) := by
  simp [Dev.holdFrame, h]

theorem Dev.holdFrame_of_held (h : d.ring.lookup f = some i) (hh : (d.ring.slot i).held = true) :
    d.holdFrame f = (d, .done) := by
  simp [Dev.holdFrame, h, hh]

theorem Dev.holdFrame_of_full {w : WorkingPlan} (h : d.ring.lookup f = some i) (hw : d.plan.working = some w)
    (hh : (d.ring.slot i).held = false) (hk : w.plan.slots - 3 ≤ d.ring.holdCount) :
    d.holdFrame f = (d, .full) := by
  simp [Dev.holdFrame, h, hh, Dev.plan?, hw, hk]

theorem Dev.holdFrame_of_room {w : WorkingPlan} (h : d.ring.lookup f = some i) (hw : d.plan.working = some w)
    (hh : (d.ring.slot i).held = false) (hk : d.ring.holdCount < w.plan.slots - 3) :
    d.holdFrame f = ({ d with ring := { d.ring with
      slots := d.ring.slots.modify i fun x => { x with held := true }
      holdCount := d.ring.holdCount + 1 } }, .done) := by
  simp [Dev.holdFrame, h, hh, Dev.plan?, hw, hk, Dev.updSlot]

theorem Dev.releaseFrame_of_absent (h : d.ring.lookup f = none) : d.releaseFrame f = (d, .gone) := by
  simp [Dev.releaseFrame, h]

theorem Dev.releaseFrame_of_unheld (h : d.ring.lookup f = some i) (hh : (d.ring.slot i).held = false) :
    d.releaseFrame f = (d, .done) := by
  simp [Dev.releaseFrame, h, hh]

theorem Dev.releaseFrame_of_held (h : d.ring.lookup f = some i) (hh : (d.ring.slot i).held = true) :
    d.releaseFrame f = ({ d with ring := { d.ring with
      slots := d.ring.slots.modify i fun x => { x with held := false }
      holdCount := d.ring.holdCount - 1 } }, .done) := by
  simp [Dev.releaseFrame, h, hh, Dev.updSlot]

end

theorem Ring.lookup_eq_none_iff (r : Ring) (f : FrameNo) :
    r.lookup f = none ↔ ∀ x ∈ r.slots, x.state = .empty ∨ x.frame ≠ f := by
  simp [Ring.lookup, List.findIdx?_eq_none_iff, Classical.or_iff_not_imp_left]

section
variable {r : Ring} {f : FrameNo} {before after : List Slot} {x : Slot}

/-- The lookup finds the first non-EMPTY slot with the number (R79). -/
theorem Ring.lookup_of_split (hs : r.slots = before ++ x :: after) (hx : x.state ≠ .empty) (hf : x.frame = f)
    (hb : ∀ y ∈ before, y.state = .empty ∨ y.frame ≠ f) : r.lookup f = some before.length := by
  have none_before : before.findIdx? (fun s => decide (s.state ≠ .empty) && decide (s.frame = f)) = none := by
    simpa [List.findIdx?_eq_none_iff, Classical.or_iff_not_imp_left] using hb
  rw [Ring.lookup, hs, List.findIdx?_append, none_before]
  simp [List.findIdx?_cons, hx, hf]

theorem Ring.slot_of_split (hs : r.slots = before ++ x :: after) : r.slot before.length = x := by
  simp [Ring.slot, hs]

end

/-- Settles O48: each clause is the order's work on the slot that the lookup finds. -/
theorem holdAndReleaseOrders : Obligations.HoldAndReleaseOrders := by
  refine ⟨fun d q tag frame ready => ⟨fun gone => ?absent, fun i w hi hw => ⟨fun held => ?held, fun free full => ?full,
    fun free room => ?room⟩⟩, fun d q tag frame => ⟨fun ready => ⟨fun gone => ?gone,
      fun l r x hs hx hf hl => ⟨fun free => ?unheld, fun held => ?release⟩⟩, fun ready => ?all, ?reusable⟩⟩
  case absent => exact Dev.takeOrder_status ready (Dev.holdFrame_of_absent gone)
  case held => exact Dev.takeOrder_status ready (Dev.holdFrame_of_held hi held)
  case full => exact Dev.takeOrder_status ready (Dev.holdFrame_of_full hi hw free full)
  case room => exact Dev.takeOrder_status ready (Dev.holdFrame_of_room hi hw free room)
  case gone =>
    have absent : d.ring.lookup frame = none := (Ring.lookup_eq_none_iff _ _).mpr gone
    exact Dev.takeOrder_status ready (Dev.releaseFrame_of_absent absent)
  case unheld =>
    have found : d.ring.lookup frame = some l.length := Ring.lookup_of_split hs hx hf hl
    have flag : (d.ring.slot l.length).held = false := by rw [Ring.slot_of_split hs, free]
    exact Dev.takeOrder_status ready (Dev.releaseFrame_of_unheld found flag)
  case release =>
    have found : d.ring.lookup frame = some l.length := Ring.lookup_of_split hs hx hf hl
    have flag : (d.ring.slot l.length).held = true := by rw [Ring.slot_of_split hs, held]
    have cleared : (d.ring.slots.modify l.length fun y => { y with held := false }) =
        l ++ { x with held := false } :: r := by
      simp [hs, List.modify_eq_take_cons_drop]
    rw [← cleared]
    exact Dev.takeOrder_status ready (Dev.releaseFrame_of_held found flag)
  case all => exact Dev.takeOrder_respond (e := d.releaseEvery) ready rfl
  case reusable =>
    intro x closed noLive noReplay
    exact (Slot.reusable_iff _).mpr ⟨closed, rfl, noLive, noReplay⟩

end Sys2Proof.Machine
end

section
/-! SUPPORT. The family 06_capture_timing_and_genlock: what a sample does to the delay filter, and what a returned echo
does to the block (section 6.2). -/

namespace Sys2Proof.Machine

/-- The cap on the round trip keeps every sample in the range of D (R105, R107). -/
theorem delaySample_le (arrival stamp : HeadTime) (turnaround : BitVec 32) :
    delaySample arrival stamp turnaround ≤ 32767 := by
  unfold delaySample
  omega

theorem isOutlier_iff (delay sample : Nat) :
    isOutlier delay sample = true ↔ 256 < ((sample : Int) - (delay : Int)).natAbs := by
  simp only [isOutlier, Bool.or_eq_true, decide_eq_true_eq]
  omega

/-- D moves toward the sample, so the clamp of R107 alters nothing when both lie in its range. -/
theorem filtered_eq_of_le {delay sample : Nat} (hd : delay ≤ 32767) (hs : sample ≤ 32767) :
    filtered delay sample = ((delay : Int) + ((sample : Int) - (delay : Int)).tdiv 8).toNat := by
  have between : 0 ≤ (delay : Int) + ((sample : Int) - (delay : Int)).tdiv 8 ∧
      (delay : Int) + ((sample : Int) - (delay : Int)).tdiv 8 ≤ 32767 := by
    rcases le_total delay sample with up | down
    · have eighth := Int.tdiv_eq_ediv_of_nonneg (a := (sample : Int) - delay) (b := 8) (by omega)
      omega
    · have eighth := Int.tdiv_eq_ediv_of_nonneg (a := (delay : Int) - sample) (b := 8) (by omega)
      have mirrored := Int.neg_tdiv ((delay : Int) - sample) 8
      rw [neg_sub] at mirrored
      omega
  rw [filtered, min_eq_right between.2, max_eq_right between.1]

section
variable {t : Timing} {sample : Nat}

theorem Timing.filter_of_first (h : t.delayValid = false) :
    t.filter sample = { t with delay := sample, delayValid := true } := by
  simp [Timing.filter, h]

theorem Timing.filter_of_inlier (h : t.delayValid = true) (near : isOutlier t.delay sample = false) :
    t.filter sample = { t with delay := filtered t.delay sample, outlierRun := 0 } := by
  simp [Timing.filter, h, near]

/-- The first three outliers of a run leave D; the fourth reseeds it and ends the run (R107). -/
theorem Timing.filter_of_outlier (h : t.delayValid = true) (far : isOutlier t.delay sample = true) :
    t.filter sample = { t with
      delay := if t.outlierRun < 3 then t.delay else sample
      outlierRun := if t.outlierRun < 3 then t.outlierRun + 1 else 0 } := by
  by_cases short : t.outlierRun < 3
  · have noReseed : ¬ 4 ≤ t.outlierRun + 1 := by omega
    simp [Timing.filter, h, far, short, noReseed]
  · have reseed : 4 ≤ t.outlierRun + 1 := by omega
    simp [Timing.filter, h, far, short, reseed]

end

section
variable {d : Dev} {seq : BitVec 16} {stamp arrival : HeadTime} {turnaround : BitVec 32}

/-- A return without an outstanding echo, or of another sequence, is ignored (R104). -/
theorem Dev.takeEcho_of_unmatched (h : d.timing.echoOut = false ∨ d.timing.echoSeq ≠ seq) :
    d.takeEcho seq stamp turnaround arrival = d := by
  rcases h with idle | other
  · simp [Dev.takeEcho, idle]
  · simp [Dev.takeEcho, other]

/-- A matching return passes its sample to the filter; an outlier is also counted (R104, R107). -/
theorem Dev.takeEcho_of_matched (out : d.timing.echoOut = true) (same : d.timing.echoSeq = seq) :
    d.takeEcho seq stamp turnaround arrival = { d with
      counters := if d.timing.delayValid && isOutlier d.timing.delay (delaySample arrival stamp turnaround)
        then { d.counters with echoOutliers := satInc d.counters.echoOutliers } else d.counters
      timing := { d.timing.filter (delaySample arrival stamp turnaround) with echoOut := false } } := by
  cases h : d.timing.delayValid && isOutlier d.timing.delay (delaySample arrival stamp turnaround) with
  | true => simp [Dev.takeEcho, out, same, h, Dev.updTiming, Dev.count]
  | false => simp [Dev.takeEcho, out, same, h, Dev.updTiming]

/-- ECHO_RETURN is the timing generator's take of the return. -/
theorem exec_echoReturn_of_released {q : List Instr} (h : d.resetAsserted = false) :
    exec (.echoReturn seq stamp turnaround arrival) ⟨d, q⟩ = .next ⟨d.takeEcho seq stamp turnaround arrival, q⟩ :=
  State.run_of_released _ h

end

/-- Settles O29: the return is ignored, or its sample goes to the filter, which has a clause for the first sample, for one
taken in and for an outlier. -/
theorem echoReturnIsFiltered : Obligations.EchoReturnIsFiltered := by
  intro d q seq stamp arrival turnaround released sample diff run
  have ran : run = .next ⟨d.takeEcho seq stamp turnaround arrival, q⟩ := exec_echoReturn_of_released released
  rw [ran]
  have hs : delaySample arrival stamp turnaround = sample := rfl
  refine ⟨fun unmatched => ?ignored, fun out same first => ?first, fun out same valid near hd => ?inlier,
    fun out same valid far => ?outlier⟩
  case ignored => rw [Dev.takeEcho_of_unmatched unmatched]
  case first => simp [Dev.takeEcho_of_matched out same, Timing.filter_of_first first, first, hs]
  case inlier =>
    have inside : isOutlier d.timing.delay sample = false :=
      Bool.eq_false_iff.mpr fun far => absurd ((isOutlier_iff _ _).mp far) (not_lt.mpr near)
    have moved : filtered d.timing.delay sample = ((d.timing.delay : Int) + diff.tdiv 8).toNat :=
      filtered_eq_of_le hd (delaySample_le arrival stamp turnaround)
    simp [Dev.takeEcho_of_matched out same, Timing.filter_of_inlier valid inside, inside, moved, hs]
  case outlier =>
    have outside : isOutlier d.timing.delay sample = true := (isOutlier_iff _ _).mpr far
    simp [Dev.takeEcho_of_matched out same, Timing.filter_of_outlier valid outside, valid, outside, hs]

end Sys2Proof.Machine
end

section
/-! SUPPORT. The family 08_the_downlink: what moves the cells-since-control count (R147). Sending a cell, device reset
and RESET's silencing of the line apart, an operation reaches the downlink through its control queue alone, so it leaves
the count. -/

namespace Sys2Proof.Machine

/-! ### The control queue (R154, R155) -/

@[simp] theorem Dev.offer_sinceControl (e : Entry) (d : Dev) :
    (d.offer e).downlink.sinceControl = d.downlink.sinceControl := by
  rcases d.offer_cases e with ⟨-, admitted⟩ | ⟨-, dropped⟩
  · simp [admitted]
  · simp [dropped]

@[simp] theorem Dev.offerWatch_sinceControl (id : Nat) (value : List Byte) (time : HeadTime) (d : Dev) :
    (d.offerWatch id value time).1.downlink.sinceControl = d.downlink.sinceControl := by
  rcases d.offerWatch_cases id value time with ⟨-, coalesced⟩ | ⟨-, -, admitted⟩ | ⟨-, -, dropped⟩
  · simp [coalesced]
  · simp [admitted]
  · simp [dropped]

@[simp] theorem Dev.dropReport_sinceControl (d : Dev) :
    d.dropReport.downlink.sinceControl = d.downlink.sinceControl := by
  simp only [Dev.dropReport]
  (repeat' split) <;> simp

@[simp] theorem Dev.offerResponse_sinceControl (e : Entry) (d : Dev) :
    (d.offerResponse e).downlink.sinceControl = d.downlink.sinceControl := by
  unfold Dev.offerResponse
  split <;> simp

@[simp] theorem Dev.respond_sinceControl (kind : Byte) (tag : Tag) (st : Status) (data : List Byte) (d : Dev) :
    (d.respond kind tag st data).downlink.sinceControl = d.downlink.sinceControl :=
  Dev.offerResponse_sinceControl _ d

@[simp] theorem Dev.reofferResponse_sinceControl (d : Dev) :
    d.reofferResponse.downlink.sinceControl = d.downlink.sinceControl := by
  unfold Dev.reofferResponse
  (repeat' split) <;> simp

/-! ### The replay reader's REPLAY-END entries (section 7.4) -/

@[simp] theorem Dev.replayPump_sinceControl (n : Nat) (d : Dev) :
    (d.replayPump n).downlink.sinceControl = d.downlink.sinceControl := by
  induction n generalizing d with
  | zero => rfl
  | succ n ih =>
    unfold Dev.replayPump
    (repeat' split) <;> simp [ih]

@[simp] theorem Dev.replaySettle_sinceControl (d : Dev) :
    d.replaySettle.downlink.sinceControl = d.downlink.sinceControl := Dev.replayPump_sinceControl _ d

@[simp] theorem Dev.replayLineSent_sinceControl (last : Bool) (d : Dev) :
    (d.replayLineSent last).downlink.sinceControl = d.downlink.sinceControl := by
  simp only [Dev.replayLineSent]
  (repeat' split) <;> simp

@[simp] theorem Dev.queueReplay_sinceControl (r : ReplayReq) (d : Dev) :
    (d.queueReplay r).1.downlink.sinceControl = d.downlink.sinceControl := by
  simp only [Dev.queueReplay]
  (repeat' split) <;> simp

@[simp] theorem Dev.clearRing_sinceControl (d : Dev) :
    d.clearRing.downlink.sinceControl = d.downlink.sinceControl := by
  simp [Dev.clearRing, Dev.clearReaders]

/-! ### The tracker and its FRAME-CLOSED entries (chapter 4) -/

@[simp] theorem Dev.closeFrame_sinceControl (p : Plan) (i : CtxId) (c : Context) (d : Dev) :
    (d.closeFrame p i c).downlink.sinceControl = d.downlink.sinceControl := by
  simp [Dev.closeFrame]

@[simp] theorem Dev.closeCheck_sinceControl (p : Plan) (i : CtxId) (d : Dev) :
    (d.closeCheck p i).downlink.sinceControl = d.downlink.sinceControl := by
  unfold Dev.closeCheck
  (repeat' split) <;> simp

@[simp] theorem Dev.forceClose_sinceControl (p : Plan) (i : CtxId) (d : Dev) :
    (d.forceClose p i).downlink.sinceControl = d.downlink.sinceControl := by
  simp only [Dev.forceClose]
  (repeat' split) <;> simp

@[simp] theorem Dev.expireTile_sinceControl (i : CtxId) (t : Nat) (d : Dev) :
    (d.expireTile i t).downlink.sinceControl = d.downlink.sinceControl := by
  unfold Dev.expireTile
  (repeat' split) <;> simp

@[simp] theorem Dev.expireIn_sinceControl (ctx tile : Nat) (d : Dev) :
    (d.expireIn ctx tile).downlink.sinceControl = d.downlink.sinceControl := by
  unfold Dev.expireIn
  split <;> simp

@[simp] theorem Dev.moveFront_sinceControl (p : Plan) (i : CtxId) (t : HeadTime) (x : Piece) (d : Dev) :
    (d.moveFront p i t x).downlink.sinceControl = d.downlink.sinceControl := by
  simp only [Dev.moveFront]
  split <;> simp

@[simp] theorem Dev.judgePiece_sinceControl (p : Plan) (i : CtxId) (c : Context) (t : HeadTime) (x : Piece) (d : Dev) :
    (d.judgePiece p i c t x).downlink.sinceControl = d.downlink.sinceControl := by
  simp only [Dev.judgePiece]
  (repeat' split) <;> simp

@[simp] theorem Dev.trackerPiece_sinceControl (p : Plan) (t : HeadTime) (x : Piece) (d : Dev) :
    (d.trackerPiece p t x).downlink.sinceControl = d.downlink.sinceControl := by
  simp only [Dev.trackerPiece]
  (repeat' split) <;> simp

/-! ### Captures, anchors and timers (chapters 5, 6) -/

@[simp] theorem Dev.takeCapture_sinceControl (p : Plan) (t : HeadTime) (phase : Nat) (base : BitVec 32) (d : Dev) :
    (d.takeCapture p t phase base).downlink.sinceControl = d.downlink.sinceControl := by
  simp only [Dev.takeCapture]
  (repeat' split) <;> simp

@[simp] theorem Dev.captureDue_sinceControl (d : Dev) :
    d.captureDue.downlink.sinceControl = d.downlink.sinceControl := by
  simp only [Dev.captureDue, Dev.takeInGroup]
  (repeat' split) <;> simp

@[simp] theorem Dev.apply_sinceControl (w : PendingPlan) (d : Dev) :
    (d.apply w).downlink.sinceControl = d.downlink.sinceControl := by
  simp [Dev.apply]

@[simp] theorem Dev.takeAnchor_sinceControl (a : HeadTime) (d : Dev) :
    (d.takeAnchor a).downlink.sinceControl = d.downlink.sinceControl := by
  have examined : (d.examinePending a).downlink.sinceControl = d.downlink.sinceControl := by
    unfold Dev.examinePending
    (repeat' split) <;> simp
  simp only [Dev.takeAnchor]
  split <;> simp [examined]

@[simp] theorem Dev.anchorDue_sinceControl (d : Dev) :
    d.anchorDue.downlink.sinceControl = d.downlink.sinceControl := by
  unfold Dev.anchorDue
  (repeat' split) <;> simp

@[simp] theorem Dev.sendEcho_sinceControl (d : Dev) :
    d.sendEcho.downlink.sinceControl = d.downlink.sinceControl := by
  simp [Dev.sendEcho]

@[simp] theorem Dev.timedStatus_sinceControl (d : Dev) :
    d.timedStatus.downlink.sinceControl = d.downlink.sinceControl := by
  simp only [Dev.timedStatus, Dev.dropReport_sinceControl, Dev.offer_sinceControl, Dev.updTiming_frame]

/-! ### The plan unit (chapter 2) -/

@[simp] theorem Dev.acceptCommit_sinceControl (p : Plan) (seq : BitVec 16) (d : Dev) :
    (d.acceptCommit p seq).downlink.sinceControl = d.downlink.sinceControl := by
  simp only [Dev.acceptCommit, Dev.applyFirst]
  split <;> simp

@[simp] theorem Dev.takeCommit_sinceControl (d : Dev) :
    d.takeCommit.downlink.sinceControl = d.downlink.sinceControl := by
  simp only [Dev.takeCommit]
  split <;> simp

@[simp] theorem Dev.planPiece_sinceControl (off : Nat) (bytes : List Byte) (d : Dev) :
    (d.planPiece off bytes).downlink.sinceControl = d.downlink.sinceControl := by
  simp only [Dev.planPiece]
  (repeat' split) <;> simp

/-! ### Watches (section 10.6) -/

@[simp] theorem Dev.judgeHit_sinceControl (id : Nat) (e : WatchEntry) (time : HeadTime) (d : Dev) :
    (d.judgeHit id e time).downlink.sinceControl = d.downlink.sinceControl := by
  simp only [Dev.judgeHit]
  split <;> simp

@[simp] theorem Dev.watchHit_sinceControl (id a : Nat) (bytes : List Byte) (d : Dev) :
    (d.watchHit id a bytes).downlink.sinceControl = d.downlink.sinceControl := by
  unfold Dev.watchHit
  split <;> simp

@[simp] theorem Dev.installSeed_sinceControl (data : List Byte) (d : Dev) :
    (d.installSeed data).downlink.sinceControl = d.downlink.sinceControl := by
  simp only [Dev.installSeed]
  (repeat' split) <;> simp

/-! ### Grants (chapter 1) -/

/-- Work done for one element after another leaves the count if the work for one element does. -/
theorem Dev.foldl_sinceControl {α : Type} {f : Dev → α → Dev}
    (h : ∀ d x, (f d x).downlink.sinceControl = d.downlink.sinceControl) (l : List α) (d : Dev) :
    (l.foldl f d).downlink.sinceControl = d.downlink.sinceControl := by
  induction l generalizing d with
  | nil => rfl
  | cons x l ih => exact (ih (f d x)).trans (h d x)

@[simp] theorem Dev.toPlanUnit_sinceControl (k : Nat) (piece : List Byte) (d : Dev) :
    (d.toPlanUnit k piece).downlink.sinceControl = d.downlink.sinceControl := by
  unfold Dev.toPlanUnit
  split <;> simp

@[simp] theorem Dev.toTracker_sinceControl (plan : Option Plan) (k : Nat) (piece : List Byte) (d : Dev) :
    (d.toTracker plan k piece).downlink.sinceControl = d.downlink.sinceControl := by
  cases plan with
  | none => rfl
  | some p => exact Dev.foldl_sinceControl (fun e x => Dev.trackerPiece_sinceControl p e.timing.now x e) _ d

@[simp] theorem Dev.toWatches_sinceControl (w : Watch) (a : Nat) (bytes : List Byte) (k : Nat) (piece : List Byte)
    (d : Dev) : (d.toWatches w a bytes k piece).downlink.sinceControl = d.downlink.sinceControl := by
  have hits (l : List Nat) := Dev.foldl_sinceControl (fun e id => Dev.watchHit_sinceControl id a bytes e) l d
  simp only [Dev.toWatches]
  split <;> simp [hits]

@[simp] theorem Dev.issueWrite_sinceControl (owner : Owner) (a : Addr) (bytes : List Byte) (d : Dev) :
    (d.issueWrite owner a bytes).downlink.sinceControl = d.downlink.sinceControl := by
  have classified (e : Dev) : (e.classify a.toNat bytes).downlink.sinceControl = e.downlink.sinceControl :=
    Dev.foldl_sinceControl (fun e x => by simp [Dev.takePiece]) _ e
  simp [Dev.issueWrite, classified]

@[simp] theorem Dev.grantPassing_sinceControl (d : Dev) :
    d.grantPassing.downlink.sinceControl = d.downlink.sinceControl := by
  simp only [Dev.grantPassing]
  (repeat' split) <;> simp

@[simp] theorem Dev.grantRemote_sinceControl (d : Dev) :
    d.grantRemote.downlink.sinceControl = d.downlink.sinceControl := by
  simp only [Dev.grantRemote]
  (repeat' split) <;> simp

@[simp] theorem Dev.grantTo_sinceControl (x : Party) (d : Dev) :
    (d.grantTo x).downlink.sinceControl = d.downlink.sinceControl := by
  cases x <;> simp [Dev.grantTo]

@[simp] theorem Dev.grant_sinceControl (d : Dev) :
    d.grant.downlink.sinceControl = d.downlink.sinceControl := by
  unfold Dev.grant
  (repeat' split) <;> simp

/-! ### Orders and the responses of the memory (chapters 1, 9, 10) -/

@[simp] theorem Dev.memOrder_sinceControl (kind : Byte) (tag : Tag) (ok : Bool) (a n : Nat) (o : MemOrder)
    (use : RemoteUse) (op : BusOp) (d : Dev) :
    (d.memOrder kind tag ok a n o use op).downlink.sinceControl = d.downlink.sinceControl := by
  unfold Dev.memOrder
  split <;> simp

@[simp] theorem Dev.endOrder_sinceControl (kind : Byte) (tag : Tag) (o : MemOrder) (reply : MemReply) (d : Dev) :
    (d.endOrder kind tag o reply).downlink.sinceControl = d.downlink.sinceControl := by
  unfold Dev.endOrder
  (repeat' split) <;> simp

@[simp] theorem Dev.maskReadReply_sinceControl (kind : Byte) (tag : Tag) (a : Nat) (value mask : List Byte)
    (reply : MemReply) (d : Dev) :
    (d.maskReadReply kind tag a value mask reply).downlink.sinceControl = d.downlink.sinceControl := by
  unfold Dev.maskReadReply
  split <;> simp

@[simp] theorem Dev.seedReply_sinceControl (kind : Byte) (tag : Tag) (o : MemOrder) (reply : MemReply) (d : Dev) :
    (d.seedReply kind tag o reply).downlink.sinceControl = d.downlink.sinceControl := by
  unfold Dev.seedReply
  split <;> simp

@[simp] theorem Dev.remoteReply_sinceControl (use : RemoteUse) (reply : MemReply) (d : Dev) :
    (d.remoteReply use reply).downlink.sinceControl = d.downlink.sinceControl := by
  unfold Dev.remoteReply
  (repeat' split) <;> simp

@[simp] theorem Dev.deliver_sinceControl (r : InFlight) (reply : MemReply) (d : Dev) :
    (d.deliver r reply).downlink.sinceControl = d.downlink.sinceControl := by
  unfold Dev.deliver Dev.toOwner
  split <;> simp

/-- A response that is taken leaves the count, whoever it belongs to. -/
theorem Dev.response_sinceControl {mine : Owner → Bool} {tag : Nat} {reply : MemReply} {d e : Dev}
    (h : d.response mine tag reply = .next e) : e.downlink.sinceControl = d.downlink.sinceControl := by
  unfold Dev.response at h
  (repeat' split at h) <;> cases h <;> simp

/-- An order leaves the count if its work does. -/
theorem Dev.takeOrder_sinceControl {c : Instr} {f : Dev → Dev}
    (h : ∀ d, (f d).downlink.sinceControl = d.downlink.sinceControl) (d : Dev) :
    (d.takeOrder c f).downlink.sinceControl = d.downlink.sinceControl := by
  unfold Dev.takeOrder
  split
  · exact (h d.popOrder).trans (by simp)
  · rfl

/-! ### Cells (R147) -/

theorem Downlink.sent_sinceControl (x : Downlink) (kind : CellKind) (bytes : List Byte) :
    (x.sent kind bytes).sinceControl = if kind = .control then 0 else min 16 (x.sinceControl + 1) := rfl

@[simp] theorem Dev.afterControl_sinceControl (d : Dev) :
    d.afterControl.downlink.sinceControl = d.downlink.sinceControl := by
  simp only [Dev.afterControl]
  (repeat' split) <;> simp

@[simp] theorem Dev.lineSent_sinceControl (r : ReaderId) (last : Bool) (d : Dev) :
    (d.lineSent r last).downlink.sinceControl = d.downlink.sinceControl := by
  unfold Dev.lineSent
  (repeat' split) <;> simp

/-- A reader that offers a cell has a line at its head, so the boundary sends a cell of it. -/
theorem Dev.sendLine_sinceControl {r : ReaderId} {d : Dev} (kind : CellKind) (h : (d.fetcher r).offers = true) :
    (d.sendLine r kind).downlink.sinceControl = if kind = .control then 0 else min 16 (d.downlink.sinceControl + 1) := by
  unfold Dev.sendLine
  split
  · next empty => simp [Fetcher.offers, empty] at h
  · dsimp only
    split <;> simp [Downlink.sent_sinceControl]

/-- A boundary takes a cell of a reader only if that reader offers one (R146). -/
theorem Dev.offers_of_cellKind (d : Dev) :
    (d.cellKind = .live → d.live.fetcher.offers = true) ∧
      (d.cellKind = .replay → d.replay.fetcher.offers = true) := by
  simp only [Dev.cellKind]
  (repeat' split) <;> simp_all

/-- A boundary always sends one cell, and the count moves by the kind of that cell. -/
theorem Dev.boundary_sinceControl (d : Dev) : d.boundary.downlink.sinceControl =
    if d.cellKind = .control then 0 else min 16 (d.downlink.sinceControl + 1) := by
  obtain ⟨live, replay⟩ := d.offers_of_cellKind
  unfold Dev.boundary
  cases kind : d.cellKind with
  | control => simp [Dev.sendControl, Downlink.sent_sinceControl]
  | live => exact Dev.sendLine_sinceControl (r := .live) .live (live kind)
  | replay => exact Dev.sendLine_sinceControl (r := .replay) .replay (replay kind)
  | fill => rfl

/-! ### Commands -/

theorem Dev.liveBegin?_getD_sinceControl (d : Dev) :
    (d.liveBegin?.getD d).downlink.sinceControl = d.downlink.sinceControl := by
  cases begun : d.liveBegin? with
  | none => rfl
  | some e => simp [Dev.liveBegin?_frame begun]

theorem Dev.replayBegin?_getD_sinceControl (d : Dev) :
    (d.replayBegin?.getD d).downlink.sinceControl = d.downlink.sinceControl := by
  cases begun : d.replayBegin? with
  | none => rfl
  | some e => simp [Dev.replayBegin?_frame begun]

section
variable {d : Dev} {q : List Instr} {t : State}

/-- A command that changes the block leaves the count if its work does. -/
theorem State.run_sinceControl {f : Dev → Dev} (h : ∀ d, (f d).downlink.sinceControl = d.downlink.sinceControl)
    (run : State.run f ⟨d, q⟩ = .next t) : t.dev.downlink.sinceControl = d.downlink.sinceControl := by
  rw [State.run_eq] at run
  cases run
  cases d.resetAsserted
  · exact h d
  · rfl

/-- A command that carries a response leaves the count. -/
theorem State.runReply_sinceControl {mine : Owner → Bool} {tag : Nat} {reply : MemReply}
    (run : State.runReply (Dev.response mine tag reply) ⟨d, q⟩ = .next t) :
    t.dev.downlink.sinceControl = d.downlink.sinceControl := by
  unfold State.runReply at run
  split at run
  · cases run; rfl
  · split at run
    · next taken => cases run; exact Dev.response_sinceControl taken
    · cases run
    · cases run

/-- Work that is done only at its time leaves the count if the work does. -/
theorem Dev.ite_sinceControl {b : Dev → Bool} {f : Dev → Dev}
    (h : ∀ d, (f d).downlink.sinceControl = d.downlink.sinceControl) (d : Dev) :
    (if b d then f d else d).downlink.sinceControl = d.downlink.sinceControl := by
  split
  · exact h d
  · rfl

/-- Every command but CELL_BOUNDARY and DEVICE_RESET leaves the count. -/
theorem exec_sinceControl {c : Instr} (noReset : ∀ straps, c ≠ .deviceReset straps) (noCell : c ≠ .cellBoundary)
    (run : exec c ⟨d, q⟩ = .next t) : t.dev.downlink.sinceControl = d.downlink.sinceControl := by
  cases c with
  | deviceReset straps => exact absurd rfl (noReset straps)
  | cellBoundary => exact absurd rfl noCell
  | resetAssert | parkedAssert | parkedWithdraw => cases run; rfl
  | memoryResponse | reportWriteDone | watchSeedDone | maskWriteReadDone | remoteAccessDone | lineFetchResponse
  | drainWriteDone => exact State.runReply_sinceControl run
  | gateRun | gatePause | gateStep | gateMark | gateUnknownAction | replay | cancelCurrent | cancelAll | hold | release
  | releaseAll | clear | read | write | readNext | writeNext | maskWrite | watchSet =>
    exact State.run_sinceControl (Dev.takeOrder_sinceControl fun d => by simp) run
  | page | point | watchClear =>
    exact State.run_sinceControl (Dev.takeOrder_sinceControl fun d => by split <;> simp) run
  | echoTimer => exact State.run_sinceControl (Dev.ite_sinceControl (b := Dev.echoIsDue) Dev.sendEcho_sinceControl) run
  | headStatusTimer =>
    exact State.run_sinceControl (Dev.ite_sinceControl (b := Dev.statusIsDue) Dev.timedStatus_sinceControl) run
  | reportTimer =>
    exact State.run_sinceControl (Dev.ite_sinceControl (b := Dev.reportIsDue) (f := Dev.timedReport) fun d => by simp) run
  | referenceLossDeadline =>
    exact State.run_sinceControl (Dev.ite_sinceControl (b := fun d => dueAt d.timing.now d.timing.lossDeadline)
      (f := Dev.loseReference) fun d => by simp) run
  | liveFetchBegin =>
    exact State.run_sinceControl (f := fun d => d.liveBegin?.getD d) Dev.liveBegin?_getD_sinceControl run
  | replayFetchBegin =>
    exact State.run_sinceControl (f := fun d => d.replayBegin?.getD d) Dev.replayBegin?_getD_sinceControl run
  | headSideRequest | grantDecision | stagingWrite | commit | attentionAck | returnConsumed | anchorEvent | capture
  | frameStartEnd | tileDeadlineExpiry | uplinkFrameStart | uplinkFrame | missingFrameExpiry | reference | echoReturn
  | credit | returnData | responseOffer | replayEndOffer | drainWriteBegin =>
    exact State.run_sinceControl (fun d => by simp) run

/-- CELL_BOUNDARY whose boundary has been reached, out of RESET. -/
theorem exec_cellBoundary_of_reached (released : d.resetAsserted = false)
    (due : reached d.timing.now d.downlink.nextBoundary = true) :
    exec .cellBoundary ⟨d, q⟩ = .next ⟨d.boundary, q⟩ := by
  have boundary : d.boundaryDue = d.boundary := if_pos due
  rw [← boundary]
  exact State.run_of_released _ released

/-- What a CELL_BOUNDARY can do to the count: nothing, or what its boundary does. -/
theorem exec_cellBoundary_sinceControl (run : exec .cellBoundary ⟨d, q⟩ = .next t) :
    t.dev.downlink.sinceControl = d.downlink.sinceControl ∨
      t.dev.downlink.sinceControl = d.boundary.downlink.sinceControl := by
  have ran := (State.run_eq Dev.boundaryDue d q).symm.trans run
  cases ran
  simp only [Dev.boundaryDue]
  (repeat' split) <;> simp

end

/-- Settles O59: only a boundary's cell and device reset move the count, and what they write is at most 16. -/
theorem cellsSinceControl : Obligations.CellsSinceControl := by
  intro c d q t run
  have reset (straps : Straps) (is : c = .deviceReset straps) : t.dev.downlink.sinceControl = 0 := by
    subst is
    cases run
    simp [Dev.release, Dev.released]
  have moved : d.boundary.downlink.sinceControl ≤ 16 := by
    rw [Dev.boundary_sinceControl]
    split <;> omega
  refine ⟨fun noReset noCell => exec_sinceControl noReset noCell run, reset, fun cell released due => ?cell,
    fun bound => ?bound⟩
  case cell =>
    subst cell
    rw [exec_cellBoundary_of_reached released due] at run
    cases run
    rw [Dev.boundary_sinceControl]
    split
    · rfl
    · split <;> omega
  case bound =>
    by_cases isReset : ∃ straps, c = .deviceReset straps
    · obtain ⟨straps, is⟩ := isReset
      rw [reset straps is]
      omega
    · have noReset (straps : Straps) : c ≠ .deviceReset straps := fun is => isReset ⟨straps, is⟩
      by_cases cell : c = .cellBoundary
      · subst cell
        rcases exec_cellBoundary_sinceControl run with kept | counted <;> omega
      · have kept := exec_sinceControl noReset cell run
        omega

end Sys2Proof.Machine
end

section
/-! SUPPORT. What a step can do to the block, said once: every operation of the model is a chain of a few kinds of
elementary moves (`Dev.Act`). An invariant that each elementary move keeps is kept by every step. -/

namespace Sys2Proof.Machine

/-! ### The elementary moves -/

/-- Slot record `y` is `x` up to marks, outcomes, base, phase and rewrites; an EMPTY one stays bare. -/
def Slot.Same (x y : Slot) : Prop :=
  y.state = x.state ∧ y.frame = x.frame ∧ y.held = x.held ∧ y.damage = x.damage ∧ (x = .vacant → y = .vacant)

/-- The plan of a snapshot of the staging area that passed validation, clamped (R20, R23). -/
def Plan.Validated (p : Plan) : Prop :=
  ∃ (m : Memory) (planAddr mem : Nat), m.staged.failure planAddr mem = none ∧ p = m.staged.toPlan.clamp

/-- The lock run that a genlock state may stand with (R116). -/
def Genlock.Fits (g : Genlock) (run : Nat) : Prop :=
  match g with
  | .free => run = 0
  | .locking => run ≤ 2
  | .locked => run = 3

/-- One elementary move of the block. -/
inductive Dev.Act : Dev → Dev → Prop
  /-- The parts that no safety statement speaks of, changed at will. -/
  | aside (d : Dev) (r : Report) (c : Counters) (l : LiveReader) (m : Remote) (w : Watch) (n : Nat) :
      Act d { d with report := r, counters := c, live := l, remote := m, watch := w, freeCount := n }
  /-- The memory path without a new request: records may go, and the steal counter counts to 16. -/
  | path (d : Dev) (m : MemPath) : m.inflight.Sublist d.mem.inflight → m.nextTag = d.mem.nextTag →
      (m.steal ≤ 16 ∨ m.steal = d.mem.steal) → Act d { d with mem := m }
  /-- A request is issued, with no tracking handle or that of its write (R3, R5). -/
  | issue (d : Dev) (owner : Owner) (op : BusOp) (handle : List HandleEntry) : d.mem.inflight.length < 64 →
      (handle = [] ∨ ∃ a n, handle = d.writeHandle a n) → Act d (d.issue owner op handle)
  /-- The rows of a handle in flight become damage (R64). -/
  | error (d : Dev) (r : InFlight) : r ∈ d.mem.inflight →
      Act d { d with ring := { d.ring with slots := d.handleDamage r.handle } }
  /-- An entry is admitted that is no WATCH entry, or that the executor holds (R154, R171). -/
  | append (d : Dev) (e : Entry) : e.threshold ≤ 64 - d.downlink.ctrl.length →
      ((∀ id, e.isWatch id = false) ∨ d.uplink.executor = .responding e) → Act d (d.enqueue e)
  /-- A WATCH entry is offered (R155). -/
  | watch (d : Dev) (id : Nat) (value : List Byte) (time : HeadTime) : Act d (d.offerWatch id value time).1
  /-- A cell leaves: the control queue stays or is carried whole (R147, R152). -/
  | cell (d : Dev) (x : Downlink) : (x.ctrl = d.downlink.ctrl ∨ x.ctrl = []) →
      (x.sinceControl ≤ 16 ∨ x.sinceControl = d.downlink.sinceControl) → Act d { d with downlink := x }
  /-- The uplink's runs and queue move within their ranges, and the executor holds nothing but a RESPONSE
  (R162, R169, R171). -/
  | uplink (d : Dev) (u : Uplink) : (u.orders.length ≤ 16 ∨ u.orders.length ≤ d.uplink.orders.length) →
      (u.goodRun ≤ 4 ∨ u.goodRun = d.uplink.goodRun) → (u.badRun ≤ 16 ∨ u.badRun = d.uplink.badRun) →
      (∀ e, u.executor = .responding e → d.uplink.executor = .responding e ∨
        ∃ kind tag status data, e = .response kind tag status data) → Act d { d with uplink := u }
  /-- The timing generator's times move, and captures leave the schedule. -/
  | clock (d : Dev) (t : Timing) : t.delay = d.timing.delay → t.outlierRun = d.timing.outlierRun →
      t.genlock = d.timing.genlock → t.lockRun = d.timing.lockRun → t.inGroup.Sublist d.timing.inGroup →
      Act d { d with timing := t }
  /-- The delay filter takes a sample (R105 to R107). -/
  | sample (d : Dev) (n : Nat) : n ≤ 32767 → Act d { d with timing := d.timing.filter n }
  /-- The genlock moves (R116, R117). -/
  | genlock (d : Dev) (g : Genlock) (run : Nat) : g.Fits run →
      Act d { d with timing := { d.timing with genlock := g, lockRun := run } }
  /-- The group of the plan at work is built (R113). -/
  | group (d : Dev) (p : Plan) (a : HeadTime) : d.plan? = some p →
      Act d { d with timing := d.timing.buildGroup p a }
  /-- The replay reader's queue and credit move within their ranges (R136, R142). -/
  | replay (d : Dev) (r : ReplayReader) : (r.queue.length ≤ 4 ∨ r.queue.length ≤ d.replay.queue.length) →
      (r.credit ≤ 1023 ∨ r.credit ≤ d.replay.credit) → Act d { d with replay := r }
  /-- Slot records change in marks, outcomes and rewrites only (R77, R88). -/
  | slots (d : Dev) (l : List Slot) : List.Forall₂ Slot.Same d.ring.slots l →
      Act d { d with ring := { d.ring with slots := l } }
  /-- A slot is held (R94). -/
  | hold (d : Dev) (s : Nat) : (d.ring.slot s).state ≠ .empty → (d.ring.slot s).held = false →
      d.ring.holdCount < (d.plan?.map (·.slots)).getD 0 - 3 → Act d { d with ring := { d.ring with
        slots := d.ring.slots.modify s fun x => { x with held := true }, holdCount := d.ring.holdCount + 1 } }
  /-- A held slot is released (R95). -/
  | release (d : Dev) (s : Nat) : (d.ring.slot s).held = true → Act d { d with ring := { d.ring with
        slots := d.ring.slots.modify s fun x => { x with held := false }, holdCount := d.ring.holdCount - 1 } }
  /-- Every slot is released (R95). -/
  | releaseEvery (d : Dev) : Act d d.releaseEvery
  /-- The gate and the output lines move; the frame start line is high exactly while its end is set (R86, R89). -/
  | lines (d : Dev) (r : Ring) : r.slots = d.ring.slots → r.age = d.ring.age → r.holdCount = d.ring.holdCount →
      ((r.frameStartHigh = true ↔ r.frameStartEnd.isSome = true) ∨
        (r.frameStartHigh = d.ring.frameStartHigh ∧ r.frameStartEnd = d.ring.frameStartEnd)) →
      Act d { d with ring := r }
  /-- A capture takes the chosen slot and binds a free context to it (R53, R82, R85). -/
  | allocate (d : Dev) (p : Plan) (s phase : Nat) (base : BitVec 32) (start : HeadTime) : d.plan? = some p →
      (d.tracker.ctx0 = none ∨ d.tracker.ctx1 = none ∨ d.tracker.order = []) → d.ring.choose p.slots = some s →
      Act d (Dev.bindCtx p s start { d with ring := d.ring.allocate p s phase base d.timing.now })
  /-- Rows of a tile are damaged (R62). -/
  | damage (d : Dev) (p : Plan) (s t f l : Nat) : d.plan? = some p → f ≤ l → l < p.rows (p.tileAt t) →
      Act d (d.addDamage p s t f l)
  /-- A RUNNING tile stalls with its missing rows damaged (R68). -/
  | stall (d : Dev) (p : Plan) (i : CtxId) (c : Context) (t : Nat) (g : Front) : d.plan? = some p →
      d.tracker.ctx i = some c → c.fronts[t]? = some g → g.status = .running → Act d (d.stallTile p i c.slot t g)
  /-- A front moves within its tile, or to its end (R56). -/
  | front (d : Dev) (p : Plan) (i : CtxId) (c : Context) (t : Nat) (g : Front) (f : Front → Front) : d.plan? = some p →
      d.tracker.ctx i = some c → c.fronts[t]? = some g →
      (FrontSafe (p.rows (p.tileAt t)) (p.rowLen (p.tileAt t)) g →
        FrontSafe (p.rows (p.tileAt t)) (p.rowLen (p.tileAt t)) (f g)) → Act d (d.updFront i t f)
  /-- The frame of a bound context closes (R70). -/
  | shut (d : Dev) (i : CtxId) (c : Context) : d.tracker.ctx i = some c → Act d (d.shutFrame i c)
  /-- CLEAR empties the slots that are not held, when no context follows one (R96). -/
  | vacate (d : Dev) : (d.plan.working = none ∨ (d.tracker.ctx0 = none ∧ d.tracker.ctx1 = none)) → Act d d.clearSlots
  /-- A plan goes to work: the contexts are freed and the slots EMPTY (R27, R73, R99). -/
  | apply (d : Dev) (w : PendingPlan) : (d.plan.pending = some w ∨ w.plan.Validated) → Act d { d with
      plan := { d.plan with working := some { plan := w.plan, seq := w.seq }, pending := none }
      tracker := { d.tracker with ctx0 := none, ctx1 := none, order := [] }
      ring := d.ring.cleared }
  /-- A valid plan waits (R25). -/
  | pend (d : Dev) (w : PendingPlan) : w.plan.Validated →
      Act d { d with plan := { d.plan with pending := some w } }
  /-- The shadow, the live words and the last result change (R18, R24, R29). -/
  | words (d : Dev) (shadow live : Memory) (last : CommitResult) : (d.plan.shadow.wf = true → shadow.wf = true) →
      (d.plan.live.wf = true → live.wf = true) →
      Act d { d with plan := { d.plan with shadow := shadow, live := live, last := last } }
  /-- The return feed moves, safe under safe plans (chapter 11). -/
  | feed (d : Dev) (f : Feed) : (d.PlanSafe → d.feed.Safe → f.Safe) → Act d { d with feed := f }
  /-- The block is reset (R17). -/
  | reset (d : Dev) (straps : Straps) : Act d (d.release straps)

/-- Block `e` is reached from `d` by elementary moves. -/
def Dev.Acts (d e : Dev) : Prop := Relation.ReflTransGen Dev.Act d e

section
variable {d e f : Dev}

theorem Dev.Acts.rfl : d.Acts d := Relation.ReflTransGen.refl

theorem Dev.Acts.trans (h : d.Acts e) (g : e.Acts f) : d.Acts f := Relation.ReflTransGen.trans h g

theorem Dev.Act.acts (h : d.Act e) : d.Acts e := Relation.ReflTransGen.single h

/-- What every elementary move keeps, every chain of moves keeps. -/
theorem Dev.Acts.keeps {P : Dev → Prop} (h : ∀ d e, Dev.Act d e → P d → P e) (acts : d.Acts e) (safe : P d) : P e := by
  induction acts with
  | refl => exact safe
  | tail _ act ih => exact h _ _ act ih

/-- Two blocks that differ only in parts no safety statement speaks of. -/
theorem Dev.acts_of_same (h : e.resetAsserted = d.resetAsserted ∧ e.mem = d.mem ∧ e.plan = d.plan ∧
    e.tracker = d.tracker ∧ e.ring = d.ring ∧ e.timing = d.timing ∧ e.replay = d.replay ∧ e.downlink = d.downlink ∧
    e.uplink = d.uplink ∧ e.feed = d.feed) : d.Acts e := by
  have moved := Dev.Act.aside d e.report e.counters e.live e.remote e.watch e.freeCount
  obtain ⟨pin, mem, plan, tracker, ring, timing, replay, downlink, uplink, feed⟩ := h
  rw [← pin, ← mem, ← plan, ← tracker, ← ring, ← timing, ← replay, ← downlink, ← uplink, ← feed] at moved
  exact moved.acts

/-! The moves of one part, for a block given by its parts. -/

theorem Dev.acts_path (he : e = { d with mem := e.mem }) (records : e.mem.inflight.Sublist d.mem.inflight)
    (tag : e.mem.nextTag = d.mem.nextTag) (steal : e.mem.steal ≤ 16 ∨ e.mem.steal = d.mem.steal) : d.Acts e := by
  rw [he]; exact (Dev.Act.path d e.mem records tag steal).acts

theorem Dev.acts_cell (he : e = { d with downlink := e.downlink })
    (ctrl : e.downlink.ctrl = d.downlink.ctrl ∨ e.downlink.ctrl = [])
    (since : e.downlink.sinceControl ≤ 16 ∨ e.downlink.sinceControl = d.downlink.sinceControl) : d.Acts e := by
  rw [he]; exact (Dev.Act.cell d e.downlink ctrl since).acts

theorem Dev.acts_uplink (he : e = { d with uplink := e.uplink })
    (orders : e.uplink.orders.length ≤ 16 ∨ e.uplink.orders.length ≤ d.uplink.orders.length)
    (good : e.uplink.goodRun ≤ 4 ∨ e.uplink.goodRun = d.uplink.goodRun)
    (bad : e.uplink.badRun ≤ 16 ∨ e.uplink.badRun = d.uplink.badRun)
    (held : ∀ x, e.uplink.executor = .responding x → d.uplink.executor = .responding x ∨
      ∃ kind tag status data, x = .response kind tag status data) : d.Acts e := by
  rw [he]; exact (Dev.Act.uplink d e.uplink orders good bad held).acts

theorem Dev.acts_clock (he : e = { d with timing := e.timing }) (delay : e.timing.delay = d.timing.delay)
    (outlier : e.timing.outlierRun = d.timing.outlierRun) (genlock : e.timing.genlock = d.timing.genlock)
    (run : e.timing.lockRun = d.timing.lockRun) (rest : e.timing.inGroup.Sublist d.timing.inGroup) : d.Acts e := by
  rw [he]; exact (Dev.Act.clock d e.timing delay outlier genlock run rest).acts

/-- The replay reader changes without a request more or a credit more. -/
theorem Dev.acts_replay (he : e = { d with replay := e.replay })
    (queue : e.replay.queue.length ≤ d.replay.queue.length) (credit : e.replay.credit ≤ d.replay.credit) :
    d.Acts e := by
  rw [he]; exact (Dev.Act.replay d e.replay (.inr queue) (.inr credit)).acts

theorem Dev.acts_lines (he : e = { d with ring := e.ring }) (slots : e.ring.slots = d.ring.slots)
    (age : e.ring.age = d.ring.age) (holds : e.ring.holdCount = d.ring.holdCount)
    (high : (e.ring.frameStartHigh = true ↔ e.ring.frameStartEnd.isSome = true) ∨
      (e.ring.frameStartHigh = d.ring.frameStartHigh ∧ e.ring.frameStartEnd = d.ring.frameStartEnd)) : d.Acts e := by
  rw [he]; exact (Dev.Act.lines d e.ring slots age holds high).acts

theorem Dev.acts_feed (he : e = { d with feed := e.feed }) (safe : d.PlanSafe → d.feed.Safe → e.feed.Safe) :
    d.Acts e := by
  rw [he]; exact (Dev.Act.feed d e.feed safe).acts

/-- Two blocks that differ only in parts no safety statement speaks of, and in the replay reader without a request or a
credit more. -/
theorem Dev.acts_of_alike (h : e.resetAsserted = d.resetAsserted ∧ e.mem = d.mem ∧ e.plan = d.plan ∧
    e.tracker = d.tracker ∧ e.ring = d.ring ∧ e.timing = d.timing ∧ e.downlink = d.downlink ∧ e.uplink = d.uplink ∧
    e.feed = d.feed)
    (queue : e.replay.queue.length ≤ d.replay.queue.length) (credit : e.replay.credit ≤ d.replay.credit) :
    d.Acts e :=
  Dev.Acts.trans (e := { d with replay := e.replay }) (Dev.acts_replay rfl queue credit)
    (Dev.acts_of_same (by simpa using h))

end

end Sys2Proof.Machine
end

section
/-! SUPPORT. The operations of Ops, Flags, Readers, Tracker, Feed and RingOps as chains of elementary moves. -/

namespace Sys2Proof.Machine

/-! ### Slot records -/

theorem Slot.Same.refl (x : Slot) : x.Same x := ⟨rfl, rfl, rfl, rfl, id⟩

/-- A record that is not EMPTY keeps what `Slot.Same` says whatever its other fields become. -/
theorem Slot.Same.of_not_empty {x y : Slot} (h : x.state ≠ .empty) (hs : y.state = x.state) (hf : y.frame = x.frame)
    (hh : y.held = x.held) (hd : y.damage = x.damage) : x.Same y :=
  ⟨hs, hf, hh, hd, fun bare => absurd (by rw [bare]; rfl) h⟩

theorem List.forall₂_modify {α : Type} {R : α → α → Prop} (refl : ∀ x, R x x) {f : α → α} {l : List α} {s : Nat}
    (h : ∀ x, l[s]? = some x → R x (f x)) : List.Forall₂ R l (l.modify s f) := by
  induction l generalizing s with
  | nil => simp
  | cons x l ih =>
    cases s with
    | zero => exact .cons (h x rfl) (List.forall₂_same.mpr fun y _ => refl y)
    | succ s => exact .cons (refl x) (ih fun y hy => h y (by simpa using hy))

/-- A change of one record that keeps what safety speaks of. -/
theorem Dev.acts_updSlot {s : Nat} {f : Slot → Slot} {d : Dev} (h : ∀ x, d.ring.slots[s]? = some x → x.Same (f x)) :
    d.Acts (d.updSlot s f) := (Dev.Act.slots d _ (List.forall₂_modify Slot.Same.refl h)).acts

theorem Ring.slot_of_getElem? {r : Ring} {s : Nat} {x : Slot} (h : r.slots[s]? = some x) : r.slot s = x := by
  simp [Ring.slot, List.getD_eq_getElem?_getD, h]

/-- A slot that is not EMPTY may be marked. -/
theorem Dev.acts_mark {r : ReaderId} {s : Nat} {d : Dev} (h : ∀ x, d.ring.slots[s]? = some x → x.state ≠ .empty) :
    d.Acts (d.mark r s) :=
  Dev.acts_updSlot fun x hx => by cases r <;> exact Slot.Same.of_not_empty (h x hx) rfl rfl rfl rfl

/-- A mark may go from any slot. -/
theorem Dev.acts_unmark (r : ReaderId) (s : Nat) (d : Dev) : d.Acts (d.unmark r s) :=
  Dev.acts_updSlot fun x _ => by
    cases r
    · exact ⟨rfl, rfl, rfl, rfl, fun bare => by subst bare; rfl⟩
    · exact ⟨rfl, rfl, rfl, rfl, fun bare => by subst bare; rfl⟩

/-! ### The control queue -/

theorem Dev.acts_offer {e : Entry} (h : ∀ id, e.isWatch id = false) (d : Dev) : d.Acts (d.offer e) := by
  rcases d.offer_cases e with ⟨room, admitted⟩ | ⟨-, dropped⟩
  · rw [admitted]; exact (Dev.Act.append d e room (.inl h)).acts
  · rw [dropped]; exact Dev.acts_of_same (by simp)

theorem Dev.acts_enqueue {e : Entry} {d : Dev} (admitted : d.admits e = true) (h : ∀ id, e.isWatch id = false) :
    d.Acts (d.enqueue e) := (Dev.Act.append d e (of_decide_eq_true admitted) (.inl h)).acts

/-! ### The replay reader -/

section
variable {d : Dev}

theorem Dev.acts_setCurrent (c : Option CurrentReq) (d : Dev) : d.Acts (d.setCurrent c) :=
  Dev.acts_replay rfl le_rfl le_rfl

theorem Dev.acts_replayBegin? {e : Dev} (h : d.replayBegin? = some e) : d.Acts e := by
  unfold Dev.replayBegin? at h
  split at h
  · split at h
    · cases h
      refine Dev.acts_replay rfl le_rfl ?_
      dsimp only
      split <;> omega
    · cases h
  · cases h

theorem Dev.acts_replayBegin?_getD (d : Dev) : d.Acts (d.replayBegin?.getD d) := by
  cases begun : d.replayBegin? with
  | none => exact .rfl
  | some e => exact Dev.acts_replayBegin? begun

theorem Dev.acts_replayExamine (d : Dev) : d.Acts d.replayExamine := by
  unfold Dev.replayExamine
  split
  · exact .rfl
  · next e begun => exact (Dev.acts_replayBegin? begun).trans (Dev.acts_replayBegin?_getD e)

theorem Dev.acts_enterSending {s : Nat} (q : ReplayReq) (h : ∀ x, d.ring.slots[s]? = some x → x.state ≠ .empty) :
    d.Acts (d.enterSending q s) :=
  ((Dev.acts_mark h).trans (Dev.acts_setCurrent _ _)).trans (Dev.acts_replayExamine _)

/-- The lookup finds slots that are not EMPTY (R79). -/
theorem Ring.lookup_not_empty {r : Ring} {f : FrameNo} {s : Nat} (h : r.lookup f = some s) {x : Slot}
    (hx : r.slots[s]? = some x) : x.state ≠ .empty := by
  obtain ⟨hs, found, -⟩ := List.findIdx?_eq_some_iff_getElem.mp h
  rw [List.getElem?_eq_getElem hs, Option.some.injEq] at hx
  rw [hx] at found
  simp only [ne_eq, decide_not, Bool.and_eq_true, Bool.not_eq_true', decide_eq_false_iff_not] at found
  exact found.1

theorem Dev.acts_startRequest (q : ReplayReq) (d : Dev) : d.Acts (d.startRequest q) := by
  unfold Dev.startRequest
  split
  · exact Dev.acts_setCurrent _ d
  · split
    · exact Dev.acts_setCurrent _ d
    · next s found =>
      split
      · exact Dev.acts_setCurrent _ d
      · exact Dev.acts_enterSending q fun x => Ring.lookup_not_empty found

theorem Dev.acts_finishRequest (c : CurrentReq) (d : Dev) : d.Acts (d.finishRequest c) := by
  unfold Dev.finishRequest
  split
  · exact (Dev.acts_unmark ..).trans (Dev.acts_setCurrent ..)
  · exact Dev.acts_setCurrent ..

theorem Dev.acts_replayPump (n : Nat) (d : Dev) : d.Acts (d.replayPump n) := by
  induction n generalizing d with
  | zero => exact .rfl
  | succ n ih =>
    unfold Dev.replayPump
    split
    · split
      · exact .rfl
      · next q qs queue =>
        refine Dev.Acts.trans (Dev.Acts.trans ?_ (Dev.acts_startRequest q _)) (ih _)
        exact Dev.acts_replay rfl (by simp [queue]) le_rfl
    · next c _ =>
      split
      · exact .rfl
      · exact .rfl
      · split
        · next admitted =>
          exact ((Dev.acts_enqueue admitted fun _ => rfl).trans (Dev.acts_finishRequest c _)).trans (ih _)
        · exact .rfl

theorem Dev.acts_replaySettle (d : Dev) : d.Acts d.replaySettle := Dev.acts_replayPump _ d

theorem Dev.acts_replayClosed {s : Nat} (h : ∀ x, d.ring.slots[s]? = some x → x.state ≠ .empty) :
    d.Acts (d.replayClosed s) := by
  unfold Dev.replayClosed
  split
  · exact .rfl
  · split
    · exact Dev.acts_enterSending _ h
    · exact .rfl

theorem Dev.acts_replayLineSent (last : Bool) (d : Dev) : d.Acts (d.replayLineSent last) := by
  simp only [Dev.replayLineSent]
  split
  · exact .rfl
  · split
    · exact (Dev.acts_setCurrent ..).trans (Dev.acts_replaySettle _)
    · exact (Dev.acts_setCurrent ..).trans (Dev.acts_replayExamine _)

theorem Dev.acts_cancelRequest (d : Dev) : d.Acts d.cancelRequest := by
  unfold Dev.cancelRequest
  split
  · exact .rfl
  · next c _ =>
    have unmarked : d.Acts (if c.marked then d.unmark .replay c.slot else d) := by
      split
      · exact Dev.acts_unmark ..
      · exact .rfl
    split
    · exact .rfl
    · exact unmarked.trans (Dev.acts_replay rfl le_rfl le_rfl)
    · exact unmarked.trans (Dev.acts_replay rfl le_rfl le_rfl)

theorem Dev.acts_cancelQueued (d : Dev) : d.Acts d.cancelQueued := Dev.acts_replay rfl (by simp) le_rfl

theorem Dev.acts_addCredit (n : Nat) (d : Dev) : d.Acts (d.addCredit n) := by
  refine Dev.Acts.trans ?_ (Dev.acts_replayExamine _)
  exact (Dev.Act.replay d { d.replay with credit := min 1023 (d.replay.credit + n) } (.inr le_rfl)
    (.inl (min_le_left _ _))).acts

/-! ### The live reader -/

theorem Dev.acts_liveExamine (d : Dev) : d.Acts d.liveExamine := Dev.acts_of_same (by simp)

theorem Dev.acts_liveOffer {s : Nat} (p : Plan) (h : ∀ x, d.ring.slots[s]? = some x → x.state ≠ .empty) :
    d.Acts (d.liveOffer p s) := by
  refine (Dev.acts_mark (r := .live) h).trans ?_
  simp only [Dev.liveOffer]
  split
  · exact Dev.acts_of_same (by simp)
  · exact Dev.acts_of_same (by simp)
  · next w _ _ => exact (Dev.acts_unmark .live w _).trans (Dev.acts_of_same (by simp))

theorem Dev.acts_liveDone (p : Plan) (d : Dev) : d.Acts (d.liveDone p) := by
  simp only [Dev.liveDone]
  split
  · exact .rfl
  · next s _ =>
    refine (Dev.acts_unmark .live s d).trans ?_
    split <;> exact Dev.acts_of_same (by simp)

theorem Dev.acts_liveLineSent (p : Plan) (last : Bool) (d : Dev) : d.Acts (d.liveLineSent p last) := by
  unfold Dev.liveLineSent
  split
  · exact (Dev.acts_liveDone p d).trans (Dev.acts_liveExamine _)
  · exact Dev.acts_liveExamine d

theorem Dev.acts_fetchResponse (r : ReaderId) (i : BufId) (q : FetchReq) (data : Option (List Byte)) (d : Dev) :
    d.Acts (d.fetchResponse r i q data) := by
  cases r
  · exact Dev.Acts.trans (Dev.acts_of_same (by simp [Dev.updFetcher])) (Dev.acts_liveExamine _)
  · refine Dev.Acts.trans ?_ (Dev.acts_replayExamine _)
    exact Dev.acts_replay rfl le_rfl le_rfl

/-! ### The tracker -/

/-- The slot of a frame just closed is not EMPTY. -/
theorem Dev.shutFrame_not_empty {i : CtxId} {c : Context} {x : Slot}
    (hx : (d.shutFrame i c).ring.slots[c.slot]? = some x) : x.state ≠ .empty := by
  have ring : (d.shutFrame i c).ring.slots = d.ring.slots.modify c.slot fun x =>
      { x with state := .closed, outcomes := c.fronts.map (·.status.outcome) } := by
    cases i <;> rfl
  rw [ring, List.getElem?_modify_eq] at hx
  obtain ⟨y, -, rfl⟩ := Option.map_eq_some_iff.mp hx
  simp

theorem Dev.acts_closeFrame {i : CtxId} {c : Context} (p : Plan) (h : d.tracker.ctx i = some c) :
    d.Acts (d.closeFrame p i c) :=
  ((Dev.Act.shut d i c h).acts.trans (Dev.acts_offer (fun _ => rfl) _)).trans
    (Dev.acts_replayClosed fun x hx => Dev.shutFrame_not_empty (d := d) (i := i) (c := c) (by simpa using hx))

theorem Dev.acts_closeCheck (p : Plan) (i : CtxId) (d : Dev) : d.Acts (d.closeCheck p i) := by
  unfold Dev.closeCheck
  split
  · exact .rfl
  · next c bound =>
    split
    · exact Dev.acts_closeFrame p bound
    · exact .rfl

/-- A stall moves the front of its tile alone. -/
theorem Dev.stallTile_ctx {p : Plan} {i : CtxId} {s t : Nat} {g : Front} {c : Context} (h : d.tracker.ctx i = some c) :
    (d.stallTile p i s t g).tracker.ctx i =
      some { c with fronts := c.fronts.modify t fun g => { g with status := .stalled } } := by
  cases i <;> simp_all [Dev.stallTile, Dev.updFront, Dev.updCtx, Tracker.ctx]

theorem Dev.acts_stallAll {p : Plan} {i : CtxId} {c : Context} (ts : List Nat) : ∀ {d : Dev} {now : Context},
    d.plan? = some p → d.tracker.ctx i = some now → now.slot = c.slot → ts.Nodup →
    (∀ t ∈ ts, t < c.fronts.length ∧ now.fronts[t]? = c.fronts[t]?) → d.Acts (d.stallAll p i c ts) := by
  induction ts with
  | nil => intros; exact .rfl
  | cons t ts ih =>
    intro d now hp bound slot nodup same
    obtain ⟨inside, front⟩ := same t List.mem_cons_self
    obtain ⟨apart, nodup⟩ := List.nodup_cons.mp nodup
    have rest : ∀ u ∈ ts, u < c.fronts.length ∧ now.fronts[u]? = c.fronts[u]? :=
      fun u hu => same u (List.mem_cons_of_mem _ hu)
    have here : c.fronts[t]? = some (c.fronts.getD t .start) := by
      simp [List.getElem?_eq_getElem inside]
    simp only [Dev.stallAll]
    split
    · next running =>
      have stall := Dev.Act.stall d p i now t _ hp bound (front.trans here) running
      rw [slot] at stall
      refine stall.acts.trans (ih (by simpa [Dev.plan?] using hp) (Dev.stallTile_ctx bound) slot nodup fun u hu => ?_)
      have other : t ≠ u := fun same => apart (same ▸ hu)
      exact ⟨(rest u hu).1, by simpa [List.getElem?_modify, other] using (rest u hu).2⟩
    · exact ih hp bound slot nodup rest

theorem Dev.acts_stallAll_range {p : Plan} {i : CtxId} {c : Context} (hp : d.plan? = some p)
    (h : d.tracker.ctx i = some c) : d.Acts (d.stallAll p i c (List.range c.fronts.length)) :=
  Dev.acts_stallAll _ hp h rfl List.nodup_range fun t ht => ⟨by simpa using ht, rfl⟩

theorem Dev.acts_forceClose {p : Plan} (i : CtxId) (hp : d.plan? = some p) : d.Acts (d.forceClose p i) := by
  simp only [Dev.forceClose]
  split
  · exact .rfl
  · next c bound =>
    have counted := (Dev.acts_stallAll_range hp bound).trans
      (Dev.acts_of_same (e := (d.stallAll p i c (List.range c.fronts.length)).count fun k =>
        { k with forcedCloses := satInc k.forcedCloses }) (by simp))
    split
    · exact counted
    · next bound => exact (counted.trans (Dev.acts_closeFrame p bound)).trans (Dev.acts_liveExamine _)

theorem Dev.acts_clearClose {p : Plan} (i : CtxId) (hp : d.plan? = some p) : d.Acts (d.clearClose p i) := by
  simp only [Dev.clearClose]
  split
  · exact .rfl
  · next c bound =>
    split
    · exact Dev.acts_stallAll_range hp bound
    · next bound' => exact (Dev.acts_stallAll_range hp bound).trans (Dev.Act.shut _ i _ bound').acts

theorem Dev.acts_expireTile (i : CtxId) (t : Nat) (d : Dev) : d.Acts (d.expireTile i t) := by
  unfold Dev.expireTile
  split
  · next p c hp bound =>
    split
    · next expired =>
      have running : ∃ g, c.fronts[t]? = some g ∧ g.status = .running := by
        unfold Dev.tileExpired at expired
        split at expired
        · cases expired
        · next g front => exact ⟨g, front, of_decide_eq_true (Bool.and_eq_true_iff.mp expired).1⟩
      obtain ⟨g, front, running⟩ := running
      have start : c.fronts.getD t .start = g := by simp [List.getD_eq_getElem?_getD, front]
      rw [start]
      exact ((Dev.Act.stall d p i c t g hp bound front running).acts.trans (Dev.acts_closeCheck p i _)).trans
        (Dev.acts_liveExamine _)
    · exact .rfl
  · exact .rfl

/-- A tracker piece lies in its tile's rows and in the data bytes of its row (R45). -/
def Plan.Holds (p : Plan) (q : Piece) : Prop :=
  q.row < p.rows (p.tileAt q.tile) ∧ q.first < q.stop ∧ q.stop ≤ p.rowLen (p.tileAt q.tile)

/-- A front moved past a piece of a RUNNING tile is within the tile, or at its end (R56). -/
theorem Front.safe_moveTo {p : Plan} {q : Piece} {g : Front} {t : HeadTime} (h : p.Holds q) (running : g.status = .running) :
    FrontSafe (p.rows (p.tileAt q.tile)) (p.rowLen (p.tileAt q.tile))
      (g.moveTo (p.rows (p.tileAt q.tile)) (p.rowLen (p.tileAt q.tile)) t q) := by
  obtain ⟨row, first, stop⟩ := h
  unfold Front.moveTo
  split
  · by_cases last : q.row + 1 = p.rows (p.tileAt q.tile)
    · simp [FrontSafe, last]
    · simp only [FrontSafe, last, if_false, running]; omega
  · simp only [FrontSafe, running]; omega

/-- A change that leaves the bound context as it is changes nothing. -/
theorem Dev.updCtx_eq_self {i : CtxId} {f : Context → Context} (h : ∀ c, d.tracker.ctx i = some c → f c = c) :
    d.updCtx i f = d := by
  have same (x : Option Context) (hx : ∀ c, x = some c → f c = c) : x.map f = x := by
    cases x with
    | none => rfl
    | some c => exact congrArg some (hx c rfl)
  cases i
  · simp [Dev.updCtx, same d.tracker.ctx0 h]
  · simp [Dev.updCtx, same d.tracker.ctx1 h]

/-- A change of one front that keeps it within its tile; beyond the fronts nothing changes. -/
theorem Dev.acts_updFront {p : Plan} {i : CtxId} {c : Context} {t : Nat} {f : Front → Front} (hp : d.plan? = some p)
    (bound : d.tracker.ctx i = some c)
    (safe : FrontSafe (p.rows (p.tileAt t)) (p.rowLen (p.tileAt t)) (c.fronts.getD t .start) →
      FrontSafe (p.rows (p.tileAt t)) (p.rowLen (p.tileAt t)) (f (c.fronts.getD t .start))) :
    d.Acts (d.updFront i t f) := by
  cases front : c.fronts[t]? with
  | none =>
    have same : c.fronts.modify t f = c.fronts := List.modify_eq_self (List.getElem?_eq_none_iff.mp front)
    have unchanged : d.updFront i t f = d := Dev.updCtx_eq_self fun x hx => by
      obtain rfl : x = c := by simpa [hx] using bound
      rw [same]
    rw [unchanged]
    exact .rfl
  | some g =>
    rw [List.getD_eq_getElem?_getD, front] at safe
    exact (Dev.Act.front d p i c t g f hp bound front safe).acts

theorem Dev.acts_moveFront {p : Plan} {i : CtxId} {t : HeadTime} {q : Piece} {c : Context} (hp : d.plan? = some p)
    (bound : d.tracker.ctx i = some c) (running : (c.fronts.getD q.tile .start).status = .running) (h : p.Holds q) :
    d.Acts (d.moveFront p i t q) := by
  have moved := Dev.acts_updFront hp bound fun _ => Front.safe_moveTo (t := t) h running
  simp only [Dev.moveFront]
  split
  · exact (moved.trans (Dev.acts_closeCheck p i _)).trans (Dev.acts_liveExamine _)
  · exact moved.trans (Dev.acts_liveExamine _)

/-- Damage leaves the contexts and the plan. -/
theorem Dev.acts_addDamage {p : Plan} {s t f l : Nat} (hp : d.plan? = some p) (le : f ≤ l)
    (lt : l < p.rows (p.tileAt t)) : d.Acts (d.addDamage p s t f l) := (Dev.Act.damage d p s t f l hp le lt).acts

theorem Dev.acts_judgePiece {p : Plan} {i : CtxId} {c : Context} {t : HeadTime} {q : Piece} (hp : d.plan? = some p)
    (bound : d.tracker.ctx i = some c) (h : p.Holds q)
    (filling : ∀ x, d.ring.slots[q.slot]? = some x → x.state ≠ .empty) : d.Acts (d.judgePiece p i c t q) := by
  obtain ⟨row, -, -⟩ := id h
  simp only [Dev.judgePiece]
  split
  · exact Dev.acts_of_same (by simp)
  · next notRunning =>
    have running : (c.fronts.getD q.tile .start).status = .running := not_not.mp notRunning
    split
    · exact Dev.acts_moveFront hp bound running h
    · split
      · next gap =>
        exact (Dev.acts_addDamage hp le_rfl (by omega)).trans
          (Dev.acts_moveFront (by simpa [Dev.plan?] using hp) (by simpa using bound) running h)
      · split
        · next jump =>
          refine (Dev.acts_addDamage (s := q.slot) (t := q.tile) (f := (c.fronts.getD q.tile .start).row)
            (l := q.row - 1) hp (by omega) (by omega)).trans ?_
          split
          · exact Dev.acts_moveFront (by simpa [Dev.plan?] using hp) (by simpa using bound) running h
          · exact (Dev.acts_addDamage (by simpa [Dev.plan?] using hp) le_rfl row).trans
              (Dev.acts_moveFront (by simpa [Dev.plan?] using hp) (by simpa using bound) running h)
        · refine (Dev.acts_updSlot (f := fun x => { x with rewrites := satInc x.rewrites }) fun x hx =>
            Slot.Same.of_not_empty (filling x hx) rfl rfl rfl rfl).trans ?_
          exact Dev.acts_updFront (f := fun g => { g with seen := true }) (by simpa [Dev.plan?] using hp)
            (by simpa using bound) fun safe => safe

/-- A tracker piece of the plan at work, whatever the state of its slot (R54). -/
theorem Dev.acts_trackerPiece {p : Plan} {q : Piece} (t : HeadTime) (hp : d.plan? = some p) (h : p.Holds q) :
    d.Acts (d.trackerPiece p t q) := by
  simp only [Dev.trackerPiece]
  split
  · exact Dev.acts_of_same (by simp)
  · exact Dev.acts_of_same (by simp)
  · next filling =>
    split
    · exact .rfl
    · split
      · exact .rfl
      · next bound =>
        exact Dev.acts_judgePiece hp bound h fun x hx => by rw [← Ring.slot_of_getElem? hx, filling]; simp

/-! ### Error damage -/

/-- An error response is counted, and the rows of its request's handle become damage (R9, R64). -/
theorem Dev.acts_deliverDamage {r : InFlight} (h : r ∈ d.mem.inflight) (reply : MemReply) :
    d.Acts ((d.dropRecord r.tag).countError r reply) := by
  have dropped (e : Dev) : e.Acts (e.dropRecord r.tag) :=
    Dev.acts_path rfl List.filter_sublist rfl (.inr rfl)
  cases reply with
  | data bytes => rw [Dev.countError_data]; exact dropped d
  | done => rw [Dev.countError_done]; exact dropped d
  | error =>
    rw [Dev.countError_handle]
    exact ((Dev.Act.error d r h).acts.trans (dropped _)).trans (Dev.acts_of_same (by simp [Dev.dropRecord, Dev.handleDamage]))

end

end Sys2Proof.Machine
end

section
/-! SUPPORT. The operations of Feed, RingOps, PlanOps and Genlock as chains of elementary moves. -/

namespace Sys2Proof.Machine

/-! ### The return feed (chapter 11) -/

/-- In a ring the occupancy is the distance from C forward to P. -/
theorem Feed.occupancy_eq {f : Feed} (hp : f.start ≤ f.producer ∧ f.producer < f.stop)
    (hc : f.start ≤ f.consumer ∧ f.consumer < f.stop) :
    f.occupancy = if f.consumer ≤ f.producer then f.producer - f.consumer else f.producer + f.size - f.consumer := by
  unfold Feed.occupancy Feed.ahead Feed.size
  split
  · rw [show f.producer + (f.stop - f.start) - f.consumer = f.producer - f.consumer + (f.stop - f.start) by omega,
      Nat.add_mod_right, Nat.mod_eq_of_lt (by omega)]
  · rw [Nat.mod_eq_of_lt (by omega)]

theorem Feed.inForce_iff (f : Feed) : f.inForce = true ↔ f.start < f.stop := by simp [Feed.inForce]

/-- What R189 puts in hand fits (R189). -/
theorem Feed.Safe.examine {f : Feed} (safe : f.Safe) : f.examine.Safe := by
  obtain ⟨fifo, limits, pointers, fits⟩ := id safe
  unfold Feed.examine
  split
  · next begins =>
    simp only [Bool.and_eq_true, decide_eq_true_eq] at begins
    obtain ⟨⟨-, force⟩, some⟩ := begins
    obtain ⟨p0, p1, c0, c1, room⟩ := pointers force
    have len : f.drainLen ≤ f.fifo.length ∧ f.drainLen ≤ f.stop - f.producer ∧
        f.drainLen ≤ f.size - 64 - f.occupancy := by unfold Feed.drainLen; omega
    have presented : f.drainLen ≤ f.fifo.length ∧ f.producer + f.drainLen ≤ f.stop ∧
        f.occupancy + f.drainLen ≤ f.size - 64 := by omega
    exact ⟨fifo, limits, pointers, rfl, force, presented⟩
  · exact safe

/-- A completed drain write moves P within the ring and keeps the room of 64 bytes (R190). -/
theorem Feed.Safe.drained {f : Feed} {n : Nat} (safe : f.Safe) (granted : f.drain = .granted n false) :
    Feed.Safe { f with drain := .none, producer := f.advanced n } := by
  obtain ⟨fifo, limits, pointers, fits⟩ := safe
  simp only [Feed.DrainFits, granted] at fits
  obtain ⟨force, before, room⟩ := fits
  obtain ⟨p0, p1, c0, c1, -⟩ := pointers force
  have size : 4096 ≤ f.stop - f.start := by
    rcases limits with ⟨s, t⟩ | ⟨-, size⟩
    · rw [Feed.inForce_iff] at force; omega
    · exact size
  have inside : f.start ≤ f.advanced n ∧ f.advanced n < f.stop := by unfold Feed.advanced; split <;> omega
  refine ⟨fifo, limits, fun _ => ⟨inside.1, inside.2, c0, c1, ?_⟩, trivial⟩
  rw [Feed.occupancy_eq ⟨p0, p1⟩ ⟨c0, c1⟩] at room
  rw [Feed.occupancy_eq (f := { f with drain := .none, producer := f.advanced n }) inside ⟨c0, c1⟩]
  simp only [Feed.size] at room ⊢
  unfold Feed.advanced
  (repeat' split) <;> (repeat' split at room) <;> omega

/-- A feed whose drain write in hand is done with is safe (R189). -/
theorem Feed.Safe.undrained {f : Feed} (safe : f.Safe) : Feed.Safe { f with drain := .none } :=
  ⟨safe.1, safe.2.1, safe.2.2.1, trivial⟩

/-- An accepted consumer value frees room (R191). -/
theorem Feed.Safe.consumed {f : Feed} {v : Nat} (safe : f.Safe) (inside : f.start ≤ v ∧ v < f.stop)
    (behind : f.ahead f.producer v ≤ f.occupancy) : Feed.Safe { f with consumer := v } := by
  obtain ⟨fifo, limits, pointers, fits⟩ := safe
  have less : Feed.occupancy { f with consumer := v } ≤ f.occupancy := behind
  refine ⟨fifo, limits, fun force => ?_, ?_⟩
  · obtain ⟨p0, p1, -, -, room⟩ := pointers force
    exact ⟨p0, p1, inside.1, inside.2, le_trans less room⟩
  · unfold Feed.DrainFits at fits ⊢
    dsimp only
    split
    · trivial
    · next drain =>
      rw [drain] at fits
      obtain ⟨at_, force, staged, before, room⟩ := fits
      exact ⟨at_, force, staged, before, le_trans (Nat.add_le_add_right less _) room⟩
    · trivial
    · next drain =>
      rw [drain] at fits
      obtain ⟨force, before, room⟩ := fits
      exact ⟨force, before, le_trans (Nat.add_le_add_right less _) room⟩

/-- More bytes staged, within the FIFO (R187). -/
theorem Feed.Safe.staged {f : Feed} {bytes : List Byte} (safe : f.Safe) (room : bytes.length ≤ 4096 - f.fifo.length) :
    Feed.Safe { f with fifo := f.fifo ++ bytes } := by
  obtain ⟨fifo, limits, pointers, fits⟩ := safe
  refine ⟨by simp only [List.length_append]; omega, limits, pointers, ?_⟩
  unfold Feed.DrainFits at fits ⊢
  dsimp only
  split
  · trivial
  · next drain =>
    rw [drain] at fits
    obtain ⟨at_, force, staged, rest⟩ := fits
    exact ⟨at_, force, by simp only [List.length_append]; omega, rest⟩
  · trivial
  · next drain => rw [drain] at fits; exact fits

/-- The bytes of a granted drain write leave the FIFO (R189). -/
theorem Feed.Safe.granted {f : Feed} {a n : Nat} (safe : f.Safe) (presented : f.drain = .presented a n) :
    Feed.Safe { f with fifo := f.fifo.drop n, drain := .granted n false } := by
  obtain ⟨fifo, limits, pointers, fits⟩ := safe
  simp only [Feed.DrainFits, presented] at fits
  obtain ⟨-, force, -, before, room⟩ := fits
  exact ⟨by simp only [List.length_drop]; omega, limits, pointers, force, before, room⟩

/-- A ring taken up empty (R193). -/
theorem Feed.Safe.empty {f : Feed} {a b : Nat} (limits : ringLimits a b) : Feed.Safe { f with
    start := a, stop := b, producer := a, consumer := a, fifo := [], drain := f.drain.onRingChange } := by
  refine ⟨Nat.zero_le _, limits, fun force => ?_, ?_⟩
  · have lt : a < b := by simpa [Feed.inForce] using force
    refine ⟨le_rfl, lt, le_rfl, lt, ?_⟩
    rw [Feed.occupancy_eq ⟨le_rfl, lt⟩ ⟨le_rfl, lt⟩]
    simp
  · unfold Feed.DrainFits
    cases f.drain <;> trivial

/-- The limits of a plan give its return ring's. -/
theorem Plan.Limits.returnRing {p : Plan} (h : p.Limits) : ringLimits p.retStart p.retEnd := by
  unfold Plan.Limits at h
  simp only [← and_assoc] at h
  exact h.2

section
variable {d : Dev}

theorem Dev.acts_drainExamine (d : Dev) : d.Acts d.drainExamine :=
  Dev.acts_feed rfl fun _ safe => safe.examine

theorem Dev.acts_drainResponse {n : Nat} {stale : Bool} (granted : d.feed.drain = .granted n stale) (ok : Bool) :
    d.Acts (d.drainResponse n stale ok) := by
  refine Dev.Acts.trans ?_ (Dev.acts_drainExamine _)
  have ended : d.Acts { d with feed := { d.feed with drain := .none } } :=
    Dev.acts_feed rfl fun _ safe => safe.undrained
  split
  · exact ended
  · split
    · exact ended
    · next fresh =>
      have drained : d.Acts { d with feed := { d.feed with drain := .none, producer := d.feed.advanced n } } :=
        Dev.acts_feed rfl fun _ safe => safe.drained (by simpa [fresh] using granted)
      exact drained.trans (Dev.acts_of_same (by simp [Feed.advanced]))

theorem Dev.acts_offerConsumer (v : Nat) (d : Dev) : d.Acts (d.offerConsumer v) := by
  simp only [Dev.offerConsumer]
  split
  · next taken =>
    simp only [Bool.and_eq_true, decide_eq_true_eq] at taken
    refine Dev.Acts.trans ?_ (Dev.acts_drainExamine _)
    exact Dev.acts_feed rfl fun _ safe => safe.consumed taken.1 taken.2
  · exact Dev.acts_of_same (by simp)

theorem Dev.acts_stageReturn (bytes : List Byte) (d : Dev) : d.Acts (d.stageReturn bytes) := by
  unfold Dev.stageReturn
  split
  · next room =>
    refine Dev.Acts.trans ?_ (Dev.acts_drainExamine _)
    exact Dev.acts_feed rfl fun _ safe => safe.staged room
  · have dropped : d.Acts { d with feed := { d.feed with pendingDrop := satInc d.feed.pendingDrop } } :=
      Dev.acts_feed rfl fun _ safe => safe
    exact dropped.trans (Dev.acts_of_same (by simp))

theorem Dev.acts_dropReport (d : Dev) : d.Acts d.dropReport := by
  simp only [Dev.dropReport]
  split
  · exact .rfl
  · split
    · next admitted =>
      have cleared : d.Acts { d with feed := { d.feed with pendingDrop := 0 } } :=
        Dev.acts_feed rfl fun _ safe => safe
      exact cleared.trans (Dev.acts_enqueue admitted fun _ => rfl)
    · exact Dev.acts_of_same (by simp)

theorem Dev.acts_feedApply {p : Plan} (hp : d.plan? = some p) : d.Acts (d.feedApply p) := by
  obtain ⟨w, working, rfl⟩ := Option.map_eq_some_iff.mp hp
  unfold Dev.feedApply
  split
  · exact Dev.acts_drainExamine d
  · refine Dev.Acts.trans ?_ (Dev.acts_drainExamine _)
    have taken : d.Acts { d with feed := { d.feed with
        start := w.plan.retStart, stop := w.plan.retEnd, producer := w.plan.retStart, consumer := w.plan.retStart
        fifo := [], drain := d.feed.drain.onRingChange } } :=
      Dev.acts_feed rfl fun plan _ => Feed.Safe.empty (by
        obtain ⟨-, -, -, limits⟩ := plan
        exact (limits w working).returnRing)
    exact taken.trans (Dev.acts_of_same (by simp))

/-! ### Captures (chapter 5) -/

/-- A frame that closes frees its context, and none else. -/
theorem Dev.closeFrame_ctx (p : Plan) (i j : CtxId) (c : Context) (d : Dev) :
    (d.closeFrame p i c).tracker.ctx j = if j = i then none else d.tracker.ctx j := by
  cases i <;> cases j <;> simp [Dev.closeFrame, Dev.shutFrame, Dev.freeCtx, Tracker.ctx]

/-- Stalls leave a context bound, or free. -/
theorem Dev.stallAll_ctx_eq_none_iff (p : Plan) (i j : CtxId) (c : Context) (ts : List Nat) (d : Dev) :
    (d.stallAll p i c ts).tracker.ctx j = none ↔ d.tracker.ctx j = none := by
  induction ts generalizing d with
  | nil => rfl
  | cons t ts ih =>
    simp only [Dev.stallAll]
    rw [ih]
    split
    · cases i <;> cases j <;> simp [Dev.stallTile, Dev.updFront, Dev.updCtx, Tracker.ctx]
    · rfl

theorem Dev.forceClose_ctx (p : Plan) (i : CtxId) (d : Dev) : (d.forceClose p i).tracker.ctx i = none := by
  simp only [Dev.forceClose]
  split
  · next free => exact free
  · split
    · next free => exact free
    · simp [Dev.closeFrame_ctx]

/-- The block a capture finds: with both contexts bound, the one bound earlier is freed first (R71, R81). -/
def Dev.forced (p : Plan) (d : Dev) : Dev :=
  match d.tracker.toForce with
  | none => d
  | some i => d.forceClose p i

theorem Dev.takeCapture_eq (p : Plan) (start : HeadTime) (phase : Nat) (base : BitVec 32) (d : Dev) :
    d.takeCapture p start phase base = if d.ring.gate = .paused then d else
      match (d.forced p).ring.choose p.slots with
      | none => (d.forced p).count fun c => { c with skippedCaptures := satInc c.skippedCaptures }
      | some s => (d.forced p).allocate p s start phase base := rfl

theorem Dev.forced_plan (p : Plan) (d : Dev) : (d.forced p).plan = d.plan := by
  unfold Dev.forced
  split <;> simp

theorem Dev.acts_forced {p : Plan} (hp : d.plan? = some p) : d.Acts (d.forced p) := by
  unfold Dev.forced
  split
  · exact .rfl
  · exact Dev.acts_forceClose _ hp

/-- A capture finds a context free, or a binding order that names none. -/
theorem Dev.forced_free (p : Plan) (d : Dev) : (d.forced p).tracker.ctx0 = none ∨ (d.forced p).tracker.ctx1 = none ∨
    (d.forced p).tracker.order = [] := by
  unfold Dev.forced
  split
  · next free =>
    unfold Tracker.toForce at free
    split at free
    · exact .inr (.inr (List.head?_eq_none_iff.mp free))
    · next notBoth =>
      cases h0 : d.tracker.ctx0 with
      | none => exact .inl rfl
      | some x =>
        cases h1 : d.tracker.ctx1 with
        | none => exact .inr (.inl rfl)
        | some y => exact absurd h1 (notBoth x y h0)
  · next i _ =>
    have freed := Dev.forceClose_ctx p i d
    cases i
    · exact .inl freed
    · exact .inr (.inl freed)

theorem Dev.bindCtx_ring (p : Plan) (s : Nat) (start : HeadTime) (d : Dev) : (d.bindCtx p s start).ring = d.ring := by
  simp

theorem Dev.acts_allocate {p : Plan} {s : Nat} (start : HeadTime) (phase : Nat) (base : BitVec 32)
    (hp : d.plan? = some p) (free : d.tracker.ctx0 = none ∨ d.tracker.ctx1 = none ∨ d.tracker.order = [])
    (chosen : d.ring.choose p.slots = some s) : d.Acts (d.allocate p s start phase base) := by
  have bound := (Dev.Act.allocate d p s phase base start hp free chosen).acts
  have taken (x : Slot) : (Dev.bindCtx p s start { d with
      ring := d.ring.allocate p s phase base d.timing.now }).ring.slots[s]? = some x → x.state ≠ .empty := by
    rw [Dev.bindCtx_ring]
    intro hx
    obtain ⟨-, rfl⟩ : s < d.ring.slots.length ∧ Slot.allocated p (d.ring.frameFor s) phase base = x := by
      simpa [Ring.allocate, List.getElem?_set] using hx
    simp [Slot.allocated]
  simp only [Dev.allocate]
  refine Dev.Acts.trans ?_ (Dev.acts_lines rfl rfl rfl rfl (.inr ⟨rfl, rfl⟩))
  split
  · exact bound.trans (Dev.acts_liveOffer p taken)
  · exact bound

theorem Dev.acts_takeCapture {p : Plan} (start : HeadTime) (phase : Nat) (base : BitVec 32) (hp : d.plan? = some p) :
    d.Acts (d.takeCapture p start phase base) := by
  rw [Dev.takeCapture_eq]
  split
  · exact .rfl
  · refine (Dev.acts_forced hp).trans ?_
    split
    · exact Dev.acts_of_same (by simp)
    · next chosen =>
      exact Dev.acts_allocate start phase base (by rw [Dev.plan?, Dev.forced_plan]; exact hp) (d.forced_free p) chosen

/-! ### Holds and CLEAR (sections 5.5, 5.6) -/

theorem Ring.lookup_slot {r : Ring} {f : FrameNo} {s : Nat} (h : r.lookup f = some s) : (r.slot s).state ≠ .empty := by
  have inside : s < r.slots.length := (List.findIdx?_eq_some_iff_getElem.mp h).1
  have here := List.getElem?_eq_getElem inside
  rw [Ring.slot_of_getElem? here]
  exact Ring.lookup_not_empty h here

theorem Dev.acts_holdFrame (f : FrameNo) (d : Dev) : d.Acts (d.holdFrame f).1 := by
  simp only [Dev.holdFrame]
  split
  · exact .rfl
  · next s found =>
    split
    · exact .rfl
    · next unheld =>
      split
      · next room => exact (Dev.Act.hold d s (Ring.lookup_slot found) (by simpa using unheld) room).acts
      · exact .rfl

theorem Dev.acts_releaseFrame (f : FrameNo) (d : Dev) : d.Acts (d.releaseFrame f).1 := by
  simp only [Dev.releaseFrame]
  split
  · exact .rfl
  · next s _ =>
    split
    · next held => exact (Dev.Act.release d s held).acts
    · exact .rfl

/-- CLEAR takes every mark. -/
theorem Slot.same_bare (x : Slot) : x.Same { x with live := false, replay := false } :=
  ⟨rfl, rfl, rfl, rfl, fun bare => by subst bare; rfl⟩

theorem Dev.acts_clearReaders (d : Dev) : d.Acts d.clearReaders := by
  refine Dev.Acts.trans ?_ (Dev.acts_replaySettle _)
  refine Dev.Acts.trans ?_ (Dev.acts_setCurrent _ _)
  refine ((Dev.acts_cancelRequest d).trans (Dev.acts_cancelQueued _)).trans ?_
  have bare := (Dev.Act.slots d.cancelRequest.cancelQueued
    (d.cancelRequest.cancelQueued.ring.slots.map fun (x : Slot) => { x with live := false, replay := false })
    (List.forall₂_map_right_iff.mpr (List.forall₂_same.mpr fun x _ => x.same_bare))).acts
  exact bare.trans (Dev.acts_of_alike ⟨rfl, rfl, rfl, rfl, rfl, rfl, rfl, rfl, rfl⟩ le_rfl le_rfl)

theorem Dev.clearClose_ctx (p : Plan) (i j : CtxId) (d : Dev) :
    (d.clearClose p i).tracker.ctx i = none ∧ (d.tracker.ctx j = none → (d.clearClose p i).tracker.ctx j = none) := by
  simp only [Dev.clearClose]
  split
  · next free => exact ⟨free, id⟩
  · next c _ =>
    have kept := (Dev.stallAll_ctx_eq_none_iff p i j c (List.range c.fronts.length) d).mpr
    split
    · next free => exact ⟨free, kept⟩
    · refine ⟨by cases i <;> rfl, fun free => ?_⟩
      have still := kept free
      cases i with
      | c0 => cases j with
        | c0 => rfl
        | c1 => exact still
      | c1 => cases j with
        | c0 => exact still
        | c1 => rfl

theorem Dev.acts_clearRing (d : Dev) : d.Acts d.clearRing := by
  refine (Dev.acts_clearReaders d).trans ?_
  have vacated (e : Dev) : e.Acts e.clearFilling.clearSlots := by
    unfold Dev.clearFilling
    split
    · next noPlan => exact (Dev.Act.vacate e (.inl (Option.map_eq_none_iff.mp noPlan))).acts
    · next p hp =>
      have first := Dev.acts_clearClose .c0 hp
      have second : Dev.Acts _ ((e.clearClose p .c0).clearClose p .c1) :=
        Dev.acts_clearClose .c1 (by simpa [Dev.plan?] using hp)
      have free0 := (Dev.clearClose_ctx p .c1 .c0 (e.clearClose p .c0)).2 (Dev.clearClose_ctx p .c0 .c0 e).1
      have free1 := (Dev.clearClose_ctx p .c1 .c1 (e.clearClose p .c0)).1
      exact (first.trans second).trans (Dev.Act.vacate _ (.inr ⟨free0, free1⟩)).acts
  exact vacated _

/-! ### The plan unit (chapter 2) -/

theorem Dev.cancelled_plan (d : Dev) : d.cancelRequest.cancelQueued.plan = d.plan := by simp

theorem Dev.acts_apply {w : PendingPlan} (h : d.plan.pending = some w ∨ w.plan.Validated) : d.Acts (d.apply w) := by
  refine Dev.Acts.trans ?_ (Dev.acts_replaySettle _)
  refine Dev.Acts.trans ?_ (Dev.acts_feedApply (by simp [Dev.forgetMark, Dev.plan?]))
  refine Dev.Acts.trans ?_ (Dev.acts_setCurrent _ _)
  refine ((Dev.acts_cancelRequest d).trans (Dev.acts_cancelQueued _)).trans ?_
  have applied := (Dev.Act.apply d.cancelRequest.cancelQueued w (by rw [Dev.cancelled_plan]; exact h)).acts
  exact applied.trans (Dev.acts_of_alike ⟨rfl, rfl, rfl, rfl, rfl, rfl, rfl, rfl, rfl⟩ le_rfl le_rfl)

end

end Sys2Proof.Machine
end

section
/-! SUPPORT. The operations of PlanOps, Genlock, Watches, Classify and Arbiter as chains of elementary moves. -/

namespace Sys2Proof.Machine

section
variable {d : Dev}

/-! ### Commits (section 2.2) -/

theorem Dev.acts_acceptCommit {p : Plan} (seq : BitVec 16) (h : p.clamp.Validated) : d.Acts (d.acceptCommit p seq) := by
  have last := (Dev.Act.words d d.plan.shadow d.plan.live (.accepted seq p.clampSet) id id).acts
  simp only [Dev.acceptCommit]
  refine last.trans ?_
  split
  · refine Dev.Acts.trans ?_ (Dev.acts_apply (.inr h))
    exact Dev.acts_clock rfl rfl rfl rfl rfl (List.nil_sublist _)
  · exact (Dev.Act.pend _ { plan := p.clamp, seq := seq, at_ := d.timing.now } h).acts

theorem Dev.acts_rejectCommit (reason : Group) (seq : BitVec 16) (d : Dev) : d.Acts (d.rejectCommit reason seq) :=
  (Dev.Act.words d d.plan.shadow d.plan.live (.rejected seq reason) id id).acts.trans
    (Dev.acts_of_same (by simp [Dev.rejectCommit]))

theorem Dev.acts_takeCommit (d : Dev) : d.Acts d.takeCommit := by
  simp only [Dev.takeCommit]
  split
  · exact Dev.acts_rejectCommit ..
  · next valid => exact Dev.acts_acceptCommit _ ⟨d.plan.shadow, _, _, valid, rfl⟩

/-- A plan at work stays at work through a commit (R25). -/
theorem Dev.takeCommit_plan? {p : Plan} (hp : d.plan? = some p) : d.takeCommit.plan? = some p := by
  obtain ⟨w, working, rfl⟩ := Option.map_eq_some_iff.mp hp
  simp only [Dev.takeCommit]
  split
  · simp [Dev.rejectCommit, Dev.plan?, working]
  · simp [Dev.acceptCommit, Dev.plan?, working]

theorem Dev.acts_shadowBytes (off : Nat) (bytes : List Byte) (d : Dev) : d.Acts (d.shadowBytes off bytes) :=
  (Dev.Act.words d _ d.plan.live d.plan.last (Memory.wf_writeIn 0 0x1000 bytes d.plan.shadow off) id).acts

theorem Dev.acts_liveBytes (off : Nat) (bytes : List Byte) (d : Dev) : d.Acts (d.liveBytes off bytes) :=
  (Dev.Act.words d d.plan.shadow _ d.plan.last id fun wf =>
    Memory.wf_writeIn 0x1008 0x1010 bytes _ off (Memory.wf_writeIn 0x1000 0x1004 bytes d.plan.live off wf)).acts

/-- The shadow's part of a piece, and the commit it may be (R18, R19). -/
def Dev.commitPart (off : Nat) (bytes : List Byte) (d : Dev) : Dev :=
  if covers off bytes.length 0x0FFC then (d.shadowBytes off bytes).takeCommit else d.shadowBytes off bytes

/-- The live words' part of a piece, and the ATTENTION-ACK it may be (R29, R30). -/
def Dev.ackPart (off : Nat) (bytes : List Byte) (d : Dev) : Dev :=
  if covers off bytes.length 0x1000 then
    (d.liveBytes off bytes).acknowledge ((d.liveBytes off bytes).plan.live.readNat 0x1000 4)
  else d.liveBytes off bytes

/-- The RETURN-CONSUMED a piece may be (R31). -/
def Dev.consumedPart (off : Nat) (bytes : List Byte) (d : Dev) : Dev :=
  if covers off bytes.length 0x1008 then d.offerConsumer (d.plan.live.readNat 0x1008 8) else d

theorem Dev.planPiece_eq (off : Nat) (bytes : List Byte) (d : Dev) :
    d.planPiece off bytes = ((d.commitPart off bytes).ackPart off bytes).consumedPart off bytes := rfl

theorem Dev.acts_planPiece (off : Nat) (bytes : List Byte) (d : Dev) : d.Acts (d.planPiece off bytes) := by
  have committed : d.Acts (d.commitPart off bytes) := by
    unfold Dev.commitPart
    split
    · exact (Dev.acts_shadowBytes ..).trans (Dev.acts_takeCommit _)
    · exact Dev.acts_shadowBytes ..
  have acknowledged (e : Dev) : e.Acts (e.ackPart off bytes) := by
    refine (Dev.acts_liveBytes off bytes e).trans ?_
    unfold Dev.ackPart
    split
    · exact Dev.acts_of_same (by simp)
    · exact .rfl
  have consumed (e : Dev) : e.Acts (e.consumedPart off bytes) := by
    unfold Dev.consumedPart
    split
    · exact Dev.acts_offerConsumer ..
    · exact .rfl
  exact (committed.trans (acknowledged _)).trans (consumed _)

theorem Dev.planPiece_plan? {p : Plan} (off : Nat) (bytes : List Byte) (hp : d.plan? = some p) :
    (d.planPiece off bytes).plan? = some p := by
  have committed : (d.commitPart off bytes).plan? = some p := by
    unfold Dev.commitPart
    split
    · exact Dev.takeCommit_plan? (by simpa [Dev.plan?] using hp)
    · simpa [Dev.plan?] using hp
  have acknowledged (e : Dev) : (e.ackPart off bytes).plan? = e.plan? := by
    unfold Dev.ackPart
    split <;> simp [Dev.plan?]
  have consumed (e : Dev) : (e.consumedPart off bytes).plan? = e.plan? := by
    unfold Dev.consumedPart
    split <;> simp [Dev.plan?]
  rw [Dev.planPiece_eq, consumed, acknowledged, committed]

/-! ### The timing generator (chapter 6) -/

theorem Dev.acts_timing {f : Timing → Timing} (delay : (f d.timing).delay = d.timing.delay)
    (outlier : (f d.timing).outlierRun = d.timing.outlierRun) (genlock : (f d.timing).genlock = d.timing.genlock)
    (run : (f d.timing).lockRun = d.timing.lockRun) (rest : (f d.timing).inGroup.Sublist d.timing.inGroup) :
    d.Acts (d.updTiming f) := Dev.acts_clock rfl delay outlier genlock run rest

theorem Dev.acts_sendEcho (d : Dev) : d.Acts d.sendEcho := by
  have abandoned : d.Acts d.abandonEcho := by
    unfold Dev.abandonEcho
    split
    · exact (Dev.acts_timing (f := fun t => { t with echoOut := false }) rfl rfl rfl rfl (List.Sublist.refl _)).trans
        (Dev.acts_of_same (by simp))
    · exact .rfl
  simp only [Dev.sendEcho]
  refine Dev.Acts.trans ?_ (Dev.acts_timing rfl rfl rfl rfl (List.Sublist.refl _))
  refine Dev.Acts.trans ?_ (Dev.acts_offer (fun _ => rfl) _)
  exact abandoned.trans (Dev.acts_timing rfl rfl rfl rfl (List.Sublist.refl _))

theorem Dev.acts_takeEcho (seq : BitVec 16) (stamp : HeadTime) (turnaround : BitVec 32) (arrival : HeadTime) (d : Dev) :
    d.Acts (d.takeEcho seq stamp turnaround arrival) := by
  have filtered : d.Acts (d.updTiming fun t =>
      { t.filter (delaySample arrival stamp turnaround) with echoOut := false }) := by
    refine (Dev.Act.sample d _ (delaySample_le arrival stamp turnaround)).acts.trans ?_
    exact Dev.acts_clock rfl rfl rfl rfl rfl (List.Sublist.refl _)
  simp only [Dev.takeEcho]
  split
  · split
    · exact filtered.trans (Dev.acts_of_same (by simp))
    · exact filtered
  · exact .rfl

/-- What R116 moves the genlock to fits. -/
theorem Genlock.fits_next (g : Genlock) (run : Nat) (inWindow : Bool) :
    (g.next run inWindow).1.Fits (g.next run inWindow).2 := by
  unfold Genlock.next
  split
  case h_3 =>
    split
    · rfl
    · simp only [Genlock.Fits]; omega
  all_goals simp [Genlock.Fits]

theorem Dev.acts_anchorFrom (p : Plan) (tr predicted : HeadTime) (d : Dev) : d.Acts (d.anchorFrom p tr predicted) := by
  have anchored : d.Acts (d.updTiming fun t => t.reanchor p tr predicted) := by
    have moved := (Dev.Act.genlock d _ _ (Genlock.fits_next d.timing.genlock d.timing.lockRun
      ((d.timing.reanchor p tr predicted).phaseError.toInt.natAbs ≤ p.lockWindow))).acts
    exact moved.trans (Dev.acts_clock rfl rfl rfl rfl rfl List.filter_sublist)
  simp only [Dev.anchorFrom]
  refine anchored.trans (Dev.acts_of_same ?_)
  (repeat' split) <;> simp

theorem Dev.acts_takeReference (count : BitVec 32) (tr : HeadTime) (d : Dev) : d.Acts (d.takeReference count tr) := by
  simp only [Dev.takeReference]
  refine Dev.Acts.trans (Dev.acts_timing (f := fun t => { t with
    lossDeadline := some (t.now + BitVec.ofNat 32 (lossLimit d.plan?)), nextBase := count + 1 })
    rfl rfl rfl rfl (List.Sublist.refl _)) ?_
  split
  · exact .rfl
  · split
    · split
      · exact (Dev.Act.genlock _ .locking 0 (Nat.zero_le _)).acts
      · exact .rfl
    · exact .rfl
    · exact Dev.acts_anchorFrom ..

theorem Dev.acts_loseReference (d : Dev) : d.Acts d.loseReference := by
  have lost : d.Acts (d.updTiming fun t => { t with lossDeadline := none, genlock := .free, lockRun := 0 }) :=
    (Dev.Act.genlock d .free 0 rfl).acts.trans (Dev.acts_clock rfl rfl rfl rfl rfl (List.Sublist.refl _))
  simp only [Dev.loseReference]
  refine lost.trans (Dev.acts_of_same ?_)
  split <;> simp

theorem Dev.acts_examinePending (a : HeadTime) (d : Dev) : d.Acts (d.examinePending a) := by
  unfold Dev.examinePending
  split
  · exact .rfl
  · next w waits =>
    split
    · exact Dev.acts_apply (.inl waits)
    · exact .rfl

theorem Dev.acts_recordDue (d : Dev) : d.Acts d.recordDue := Dev.acts_of_same (by simp)

theorem Dev.acts_setCause (c : Cause) (d : Dev) : d.Acts (d.setCause c) := Dev.acts_of_same (by simp)

theorem Dev.acts_takeAnchor (a : HeadTime) (d : Dev) : d.Acts (d.takeAnchor a) := by
  simp only [Dev.takeAnchor]
  refine (Dev.acts_examinePending a d).trans ?_
  split
  · exact .rfl
  · next p hp =>
    have built : (d.examinePending a).Acts ((d.examinePending a).updTiming fun t => t.buildGroup p a) :=
      (Dev.Act.group _ p a hp).acts
    refine built.trans ?_
    refine (Dev.acts_takeCapture (p := p) (d := (d.examinePending a).updTiming _) a 0 (d.examinePending a).timing.nextBase
      hp).trans ?_
    refine Dev.Acts.trans ?_ (Dev.acts_recordDue _)
    refine Dev.Acts.trans ?_ (Dev.acts_dropReport _)
    exact Dev.acts_offer (fun _ => rfl) _

theorem Dev.acts_timedStatus (d : Dev) : d.Acts d.timedStatus := by
  simp only [Dev.timedStatus]
  refine Dev.Acts.trans ?_ (Dev.acts_dropReport _)
  refine Dev.Acts.trans ?_ (Dev.acts_offer (fun _ => rfl) _)
  exact Dev.acts_timing rfl rfl rfl rfl (List.Sublist.refl _)

theorem Dev.acts_timedReport (d : Dev) : d.Acts d.timedReport := Dev.acts_of_same (by simp)

theorem Dev.acts_captureDue (d : Dev) : d.Acts d.captureDue := by
  unfold Dev.captureDue
  split
  · exact .rfl
  · next c rest schedule =>
    split
    · have left : d.Acts (d.updTiming fun t => { t with inGroup := rest }) :=
        Dev.acts_timing rfl rfl rfl rfl (by simp [schedule])
      simp only [Dev.takeInGroup]
      split
      · exact left
      · next hp => exact left.trans (Dev.acts_takeCapture _ _ _ hp)
    · exact .rfl

theorem Dev.acts_anchorDue (d : Dev) : d.Acts d.anchorDue := by
  unfold Dev.anchorDue
  split
  · exact .rfl
  · split
    · exact Dev.acts_takeAnchor ..
    · exact .rfl

/-! ### The watch unit (section 10.5) -/

theorem Dev.acts_judgeHit (id : Nat) (e : WatchEntry) (time : HeadTime) (d : Dev) : d.Acts (d.judgeHit id e time) := by
  simp only [Dev.judgeHit]
  split
  · exact (Dev.Act.watch d id e.known time).acts.trans (Dev.acts_of_same (by simp))
  · exact Dev.acts_of_same (by simp)

theorem Dev.acts_watchHit (id a : Nat) (bytes : List Byte) (d : Dev) : d.Acts (d.watchHit id a bytes) := by
  unfold Dev.watchHit
  split
  · exact .rfl
  · exact Dev.acts_judgeHit ..

theorem Dev.acts_installSeed (data : List Byte) (d : Dev) : d.Acts (d.installSeed data) := by
  simp only [Dev.installSeed]
  split
  · exact .rfl
  · next s _ =>
    have installed : d.Acts { d with watch :=
        { table := d.watch.table.set s.id (some (s.entry data)), seeding := none } } :=
      Dev.acts_of_same ⟨rfl, rfl, rfl, rfl, rfl, rfl, rfl, rfl, rfl, rfl⟩
    split
    · exact installed
    · exact installed.trans (Dev.acts_judgeHit ..)

/-! ### The classifier (section 1.2) -/

/-- Where the forward map finds a byte: in its tile's rows, within the data bytes of the row (R44). -/
theorem Plan.locate_inside {p : Plan} {a : Nat} {l : Loc} (h : p.locate a = some l) :
    l.row < p.rows (p.tileAt l.tile) ∧ l.byte < p.rowLen (p.tileAt l.tile) := by
  simp only [Plan.locate] at h
  split at h
  · split at h
    · cases h
    · next t window =>
      split at h
      · next data =>
        cases h
        obtain ⟨ht, found, -⟩ := List.findIdx?_eq_some_iff_getElem.mp window
        have tile : p.tileAt t = p.tiles[t] := by simp [Plan.tileAt, ht]
        rw [← tile] at found
        obtain ⟨low, high⟩ := Bool.and_eq_true_iff.mp found
        have low := of_decide_eq_true low
        have high : _ < (p.tileAt t).offset + p.rows (p.tileAt t) * (p.tileAt t).pitch := of_decide_eq_true high
        refine ⟨?_, data⟩
        change _ / (p.tileAt t).pitch < p.rows (p.tileAt t)
        refine Nat.div_lt_of_lt_mul ?_
        rw [Nat.mul_comm]
        omega
      · cases h
  · cases h

/-- Every tracker piece of a write lies in its tile (R45). -/
theorem Plan.trackerPieces_hold (p : Plan) (n : Nat) : ∀ (a : Nat), ∀ q ∈ p.trackerPieces a n, p.Holds q := by
  induction n with
  | zero => intro a q hq; cases hq
  | succ n ih =>
    intro a q hq
    simp only [Plan.trackerPieces] at hq
    split at hq
    · exact ih _ q hq
    · next l found =>
      obtain ⟨row, byte⟩ := Plan.locate_inside found
      have single : p.Holds { slot := l.slot, tile := l.tile, row := l.row, first := l.byte, stop := l.byte + 1 } :=
        ⟨row, Nat.lt_succ_self _, byte⟩
      have rest := ih (a + 1)
      unfold Piece.cons at hq
      split at hq
      · obtain rfl : q = _ := by simpa using hq
        exact single
      · next x xs pieces =>
        rw [pieces] at rest
        have head := rest x List.mem_cons_self
        split at hq
        · next adjoins =>
          rcases List.mem_cons.mp hq with rfl | more
          · obtain ⟨row, span, stop⟩ := head
            exact ⟨row, by simp only; omega, stop⟩
          · exact rest q (List.mem_cons_of_mem _ more)
        · rcases List.mem_cons.mp hq with rfl | more
          · exact single
          · exact rest q more

/-- Work done for one element after another, each a chain of moves while some `P` holds. -/
theorem Dev.acts_foldl {α : Type} {P : Dev → Prop} {f : Dev → α → Dev} (l : List α) : ∀ {d : Dev},
    (∀ e, ∀ x ∈ l, P e → e.Acts (f e x) ∧ P (f e x)) → P d → d.Acts (l.foldl f d) ∧ P (l.foldl f d) := by
  induction l with
  | nil => intro d _ hd; exact ⟨.rfl, hd⟩
  | cons x l ih =>
    intro d step hd
    obtain ⟨first, still⟩ := step d x List.mem_cons_self hd
    obtain ⟨rest, last⟩ := ih (fun e y hy => step e y (List.mem_cons_of_mem _ hy)) still
    exact ⟨first.trans rest, last⟩

/-- One piece of a classified write, under the plan of the grant (R5). -/
theorem Dev.acts_takePiece {plan : Option Plan} (w : Watch) (a : Nat) (bytes : List Byte) (piece : Nat × List Byte)
    (h : ∀ p, plan = some p → d.plan? = some p) :
    d.Acts (d.takePiece plan w a bytes piece) ∧
      ∀ p, plan = some p → (d.takePiece plan w a bytes piece).plan? = some p := by
  have unit : d.Acts (d.toPlanUnit piece.1 piece.2) := by
    unfold Dev.toPlanUnit
    split
    · exact Dev.acts_planPiece ..
    · exact .rfl
  have kept (p : Plan) (hp : plan = some p) : (d.toPlanUnit piece.1 piece.2).plan? = some p := by
    unfold Dev.toPlanUnit
    split
    · exact Dev.planPiece_plan? _ _ (h p hp)
    · exact h p hp
  have tracked (e : Dev) (he : ∀ p, plan = some p → e.plan? = some p) :
      e.Acts (e.toTracker plan piece.1 piece.2) := by
    unfold Dev.toTracker
    split
    · exact .rfl
    · next p =>
      exact (Dev.acts_foldl (P := fun e => e.plan? = some p) _ (fun e q hq hp =>
        ⟨Dev.acts_trackerPiece _ hp (p.trackerPieces_hold _ _ q hq), by simpa [Dev.plan?] using hp⟩) (he p rfl)).1
  have watched (e : Dev) : e.Acts (e.toWatches w a bytes piece.1 piece.2) := by
    have hits := (Dev.acts_foldl (P := fun _ => True) (w.hitIds a bytes.length piece.1 piece.2.length)
      (fun e id _ _ => ⟨Dev.acts_watchHit id a bytes e, trivial⟩) (trivial : True) (d := e)).1
    simp only [Dev.toWatches]
    refine hits.trans ?_
    split
    · exact Dev.acts_of_same (by simp)
    · exact .rfl
  exact ⟨(unit.trans (tracked _ kept)).trans (watched _), fun p hp => by
    simpa [Dev.takePiece, Dev.plan?] using kept p hp⟩

theorem Dev.acts_classify (a : Nat) (bytes : List Byte) (d : Dev) : d.Acts (d.classify a bytes) :=
  (Dev.acts_foldl (P := fun e => ∀ p, d.plan? = some p → e.plan? = some p) _
    (fun _ q _ same => Dev.acts_takePiece d.watch a bytes q same) fun _ hp => hp).1

/-! ### Grants (section 1.3) -/

theorem Dev.acts_issue (owner : Owner) (op : BusOp) (h : d.mem.inflight.length < 64) : d.Acts (d.issue owner op []) :=
  (Dev.Act.issue d owner op [] h (.inl rfl)).acts

theorem Dev.acts_issueWrite (owner : Owner) (a : Addr) (bytes : List Byte) (h : d.mem.inflight.length < 64) :
    d.Acts (d.issueWrite owner a bytes) :=
  (Dev.Act.issue d owner _ _ h (.inr ⟨a.toNat, bytes.length, rfl⟩)).acts.trans (Dev.acts_classify _ _ _)

theorem Dev.acts_grantPassing (h : d.mem.inflight.length < 64) : d.Acts d.grantPassing := by
  have emptied : d.Acts { d with mem := { d.mem with transit := none } } :=
    Dev.acts_path rfl (List.Sublist.refl _) rfl (.inr rfl)
  simp only [Dev.grantPassing]
  split
  · exact .rfl
  · split
    · exact emptied.trans (Dev.acts_issue _ _ h)
    · exact emptied.trans (Dev.acts_issueWrite _ _ _ h)

theorem Dev.acts_grantFetch (r : ReaderId) (h : d.mem.inflight.length < 64) : d.Acts (d.grantFetch r) := by
  have presented (f : Fetcher → Fetcher) : d.Acts (d.updFetcher r f) := by
    cases r
    · exact Dev.acts_of_same (by simp [Dev.updFetcher])
    · exact Dev.acts_replay rfl le_rfl le_rfl
  simp only [Dev.grantFetch]
  split
  · exact .rfl
  · exact (presented _).trans (Dev.acts_issue _ _ (by simpa using h))

theorem Dev.acts_holdPort (b : Bool) (d : Dev) : d.Acts (d.holdPort b) :=
  Dev.acts_path rfl (List.Sublist.refl _) rfl (.inr rfl)

theorem Dev.acts_grantRemote (h : d.mem.inflight.length < 64) : d.Acts d.grantRemote := by
  simp only [Dev.grantRemote]
  split
  · exact .rfl
  · next r _ =>
    have taken : d.Acts { d with remote := { d.remote with req := none } } :=
      Dev.acts_of_same ⟨rfl, rfl, rfl, rfl, rfl, rfl, rfl, rfl, rfl, rfl⟩
    have after (e : Dev) : e.Acts (match r.use with
        | .read => e
        | .write => e
        | .maskRead => e.holdPort true
        | .maskWrite => e.holdPort false
        | .seed => e.startSeeding) := by
      split
      · exact .rfl
      · exact .rfl
      · exact Dev.acts_holdPort ..
      · exact Dev.acts_holdPort ..
      · exact Dev.acts_of_same (by simp)
    refine taken.trans (Dev.Acts.trans ?_ (after _))
    split
    · exact Dev.acts_issue _ _ h
    · exact Dev.acts_issueWrite _ _ _ h

theorem Dev.acts_grantReport (h : d.mem.inflight.length < 64) : d.Acts d.grantReport := by
  simp only [Dev.grantReport]
  split
  · exact .rfl
  · next w _ =>
    refine (Dev.acts_issue .report (.write (BitVec.ofNat 34 (d.reportWrite w).1) (d.reportWrite w).2) h).trans ?_
    have ranked (e : Dev) : e.Acts { e with mem := { e.mem with lastRank3 := .report } } :=
      Dev.acts_path rfl (List.Sublist.refl _) rfl (.inr rfl)
    refine (ranked _).trans (Dev.acts_of_same (by simp))

theorem Dev.acts_grantFeed (h : d.mem.inflight.length < 64) : d.Acts d.grantFeed := by
  simp only [Dev.grantFeed]
  split
  · exact .rfl
  · exact .rfl
  · next a n presented =>
    refine (Dev.acts_issue .feed (.write (BitVec.ofNat 34 a) (d.feed.fifo.take n)) h).trans ?_
    have ranked (e : Dev) : e.Acts { e with mem := { e.mem with lastRank3 := .feed } } :=
      Dev.acts_path rfl (List.Sublist.refl _) rfl (.inr rfl)
    exact (ranked _).trans (Dev.acts_feed rfl fun _ safe => safe.granted presented)

/-- The steal counter after a choice is at most 16 (R11). -/
theorem Dev.choose_steal {x : Party} {n : Nat} (h : d.choose = some (x, n)) : n ≤ 16 := by
  unfold Dev.choose at h
  (repeat' split at h) <;> simp at h <;> omega

theorem Dev.acts_grant (d : Dev) : d.Acts d.grant := by
  unfold Dev.grant
  split
  · next may =>
    have room : d.mem.inflight.length < 64 := by
      simp only [Dev.mayGrant, Bool.and_eq_true, decide_eq_true_eq] at may
      exact may.2
    split
    · exact .rfl
    · next x n chosen =>
      have counted : d.Acts (d.setSteal n) :=
        Dev.acts_path rfl (List.Sublist.refl _) rfl (.inl (Dev.choose_steal chosen))
      refine counted.trans ?_
      unfold Dev.grantTo
      split
      · exact Dev.acts_grantPassing room
      · exact Dev.acts_grantFetch _ room
      · exact Dev.acts_grantRemote room
      · exact Dev.acts_grantReport room
      · exact Dev.acts_grantFeed room
      · exact Dev.acts_grantFetch _ room
  · exact .rfl

end

end Sys2Proof.Machine
end

section
/-! SUPPORT. The executor, the memory responses, the uplink and the downlink as chains of elementary moves; then every
command, and the step. -/

namespace Sys2Proof.Machine

section
variable {d : Dev}

/-! ### The executor (section 9.5) -/

/-- The executor goes to a state in which it holds nothing. -/
theorem Dev.acts_setExecutor {x : Executor} (h : ∀ e, x ≠ .responding e) (d : Dev) : d.Acts (d.setExecutor x) :=
  Dev.acts_uplink rfl (.inr le_rfl) (.inr rfl) (.inr rfl) fun e held => absurd held (h e)

theorem Dev.acts_respond (kind : Byte) (tag : Tag) (status : Status) (data : List Byte) (d : Dev) :
    d.Acts (d.respond kind tag status data) := by
  unfold Dev.respond Dev.offerResponse
  split
  · next admitted =>
    exact (Dev.acts_enqueue admitted fun _ => rfl).trans (Dev.acts_setExecutor (by simp) _)
  · exact Dev.acts_uplink rfl (.inr le_rfl) (.inr rfl) (.inr rfl) fun e held =>
      .inr ⟨kind, tag, status, data, (Executor.responding.inj held).symm⟩

theorem Dev.acts_reofferResponse (d : Dev) : d.Acts d.reofferResponse := by
  unfold Dev.reofferResponse
  split
  · next e held =>
    split
    · next admitted =>
      exact (Dev.Act.append d e (of_decide_eq_true admitted) (.inr held)).acts.trans
        (Dev.acts_setExecutor (by simp) _)
    · exact .rfl
  · exact .rfl
  · exact .rfl

theorem Dev.acts_popOrder (d : Dev) : d.Acts d.popOrder :=
  Dev.acts_uplink rfl (.inr (by simp [Dev.popOrder])) (.inr rfl) (.inr rfl) fun _ held => .inl held

/-- An order is taken and carried out by moves, or left. -/
theorem Dev.acts_takeOrder {f : Dev → Dev} (c : Instr) (h : ∀ d : Dev, d.Acts (f d)) (d : Dev) :
    d.Acts (d.takeOrder c f) := by
  unfold Dev.takeOrder
  split
  · exact (Dev.acts_popOrder d).trans (h _)
  · exact .rfl

theorem Dev.acts_queueReplay (q : ReplayReq) (d : Dev) : d.Acts (d.queueReplay q).1 := by
  unfold Dev.queueReplay
  split
  · exact .rfl
  · split
    · exact .rfl
    · split
      · exact .rfl
      · next room =>
        have queued : d.Acts { d with replay := { d.replay with queue := d.replay.queue ++ [q] } } :=
          (Dev.Act.replay d { d.replay with queue := d.replay.queue ++ [q] }
            (.inl (by simp only [List.length_append, List.length_singleton]; omega)) (.inr le_rfl)).acts
        refine queued.trans ?_
        dsimp only
        split
        · exact Dev.acts_replaySettle _
        · exact .rfl

theorem Dev.acts_present (kind : Byte) (tag : Tag) (order : MemOrder) (use : RemoteUse) (op : BusOp) (d : Dev) :
    d.Acts (d.present kind tag order use op) := by
  have asked : d.Acts { d with remote := { d.remote with req := some { use := use, op := op } } } :=
    Dev.acts_of_same ⟨rfl, rfl, rfl, rfl, rfl, rfl, rfl, rfl, rfl, rfl⟩
  exact asked.trans (Dev.acts_setExecutor (by simp) _)

theorem Dev.acts_memOrder (kind : Byte) (tag : Tag) (ok : Bool) (a n : Nat) (order : MemOrder) (use : RemoteUse)
    (op : BusOp) (d : Dev) : d.Acts (d.memOrder kind tag ok a n order use op) := by
  unfold Dev.memOrder
  split
  · exact Dev.acts_respond ..
  · exact Dev.acts_present ..

/-! ### Memory responses (section 1.3) -/

theorem Dev.acts_faultOn (reply : MemReply) (d : Dev) : d.Acts (d.faultOn reply) := by
  refine Dev.acts_of_same ?_
  unfold Dev.faultOn
  split <;> simp

theorem Dev.acts_feedReply (reply : MemReply) (d : Dev) : d.Acts (d.feedReply reply) := by
  unfold Dev.feedReply
  split
  · next granted => exact (Dev.acts_drainResponse granted _).trans (Dev.acts_faultOn ..)
  · exact Dev.acts_faultOn ..
  · exact Dev.acts_faultOn ..

theorem Dev.acts_advancePointer (n : Nat) (d : Dev) : d.Acts (d.advancePointer n) := Dev.acts_of_same (by simp)

theorem Dev.acts_endOrder (kind : Byte) (tag : Tag) (order : MemOrder) (reply : MemReply) (d : Dev) :
    d.Acts (d.endOrder kind tag order reply) := by
  unfold Dev.endOrder
  split
  · split
    case h_2 | h_4 => exact (Dev.acts_advancePointer _ d).trans (Dev.acts_respond ..)
    all_goals exact Dev.acts_respond ..
  · exact Dev.acts_respond ..

theorem Dev.acts_remoteReply (use : RemoteUse) (reply : MemReply) (d : Dev) : d.Acts (d.remoteReply use reply) := by
  have seeded (kind : Byte) (tag : Tag) (order : MemOrder) : d.Acts (d.seedReply kind tag order reply) := by
    refine Dev.Acts.trans ?_ (Dev.acts_endOrder ..)
    split
    · exact Dev.acts_installSeed ..
    · exact Dev.acts_of_same (by simp)
  have merged (kind : Byte) (tag : Tag) (a : Nat) (value mask : List Byte) :
      d.Acts (d.maskReadReply kind tag a value mask reply) := by
    unfold Dev.maskReadReply
    split
    · exact Dev.acts_present ..
    · exact (Dev.acts_holdPort false d).trans (Dev.acts_respond ..)
  unfold Dev.remoteReply
  split
  · exact .rfl
  · exact .rfl
  · split
    · exact seeded ..
    · exact merged ..
    · exact (Dev.acts_faultOn ..).trans (Dev.acts_endOrder ..)
    · exact (Dev.acts_faultOn ..).trans (Dev.acts_endOrder ..)
    · exact Dev.acts_endOrder ..
    all_goals exact .rfl

theorem Dev.acts_toOwner (owner : Owner) (reply : MemReply) (d : Dev) : d.Acts (d.toOwner owner reply) := by
  unfold Dev.toOwner
  split
  · exact Dev.acts_path rfl (List.Sublist.refl _) rfl (.inr rfl)
  · exact Dev.acts_fetchResponse ..
  · exact Dev.acts_remoteReply ..
  · exact Dev.acts_faultOn ..
  · exact Dev.acts_feedReply ..

theorem MemPath.mem_of_record {m : MemPath} {tag : Nat} {r : InFlight} (h : m.record tag = some r) : r ∈ m.inflight :=
  List.mem_of_find?_eq_some h

theorem Dev.acts_response {mine : Owner → Bool} {tag : Nat} {reply : MemReply} {e : Dev}
    (h : Dev.response mine tag reply d = .next e) : d.Acts e := by
  unfold Dev.response at h
  split at h
  · cases h; exact .rfl
  · next r found =>
    split at h
    · split at h
      · cases h
        exact (Dev.acts_deliverDamage (MemPath.mem_of_record found) reply).trans (Dev.acts_toOwner ..)
      · cases h
    · cases h; exact .rfl

/-! ### The uplink (chapter 9) -/

theorem Dev.acts_loseLock (d : Dev) : d.Acts d.loseLock := by
  have lost : d.Acts (d.updUplink fun u => { u with locked := false, goodRun := 0, badRun := 0, lastSeq := none }) :=
    Dev.acts_uplink rfl (.inr le_rfl) (.inl (Nat.zero_le _)) (.inl (Nat.zero_le _)) fun _ held => .inl held
  have spent (e : Dev) : e.Acts { e with replay := { e.replay with credit := 0 } } :=
    Dev.acts_replay rfl le_rfl (Nat.zero_le _)
  exact (lost.trans (spent _)).trans (Dev.acts_setCause .link _)

theorem Dev.acts_lockBad (d : Dev) : d.Acts d.lockBad := by
  unfold Dev.lockBad
  split
  · split
    · exact Dev.acts_loseLock d
    · exact Dev.acts_uplink rfl (.inr le_rfl) (.inr rfl) (.inl (by simp only [Dev.updUplink]; omega))
        fun _ held => .inl held
  · exact Dev.acts_uplink rfl (.inr le_rfl) (.inl (Nat.zero_le _)) (.inr rfl) fun _ held => .inl held

theorem Dev.acts_badFrame (d : Dev) : d.Acts d.badFrame :=
  Dev.Acts.trans (Dev.acts_of_same (by simp)) (Dev.acts_lockBad _)

/-- A change of the uplink's deadlines and sequences. -/
theorem Dev.acts_updUplink {f : Uplink → Uplink} (orders : (f d.uplink).orders = d.uplink.orders)
    (good : (f d.uplink).goodRun = d.uplink.goodRun) (bad : (f d.uplink).badRun = d.uplink.badRun)
    (held : (f d.uplink).executor = d.uplink.executor) : d.Acts (d.updUplink f) :=
  Dev.acts_uplink rfl (.inr (congrArg List.length orders).le) (.inr good) (.inr bad) fun _ h => .inl (held ▸ h)

theorem Dev.acts_queueOrder (o : RawOrder) (d : Dev) : d.Acts (d.queueOrder o) := by
  unfold Dev.queueOrder
  split
  · exact Dev.acts_uplink rfl (.inl (by simp only [Dev.updUplink, List.length_append, List.length_singleton]; omega))
      (.inr rfl) (.inr rfl) fun _ held => .inl held
  · exact Dev.acts_of_same (by simp)

theorem Dev.acts_handleOrder (first : Bool) (arrival : HeadTime) (o : RawOrder) (d : Dev) :
    d.Acts (d.handleOrder first arrival o) := by
  unfold Dev.handleOrder
  split
  · split
    · exact Dev.acts_takeReference ..
    · exact Dev.acts_of_same (by simp)
  · exact Dev.acts_takeEcho ..
  · exact Dev.acts_addCredit ..
  · exact Dev.acts_stageReturn ..
  · exact Dev.acts_queueOrder ..

theorem Dev.acts_parse (arrival : HeadTime) (n : Nat) (first : Bool) (bytes : List Byte) (d : Dev) :
    d.Acts (d.parse arrival n first bytes) := by
  induction n generalizing first bytes d with
  | zero => exact .rfl
  | succ n ih =>
    match bytes with
    | [] => exact .rfl
    | [k] =>
      simp only [Dev.parse]
      split
      · exact .rfl
      · exact Dev.acts_of_same (by simp)
    | k :: len :: rest =>
      simp only [Dev.parse]
      split
      · exact .rfl
      · split
        · exact Dev.acts_of_same (by simp)
        · refine Dev.Acts.trans ?_ (ih _ _ _)
          split
          · exact Dev.acts_handleOrder ..
          · exact Dev.acts_of_same (by simp)

theorem Dev.acts_goodFrame (arrival : HeadTime) (bytes : List Byte) (d : Dev) :
    d.Acts (d.goodFrame arrival bytes) := by
  have good : d.Acts (d.updUplink Uplink.good) := by
    refine Dev.acts_uplink rfl ?_ ?_ ?_ ?_ <;> simp only [Dev.updUplink, Uplink.good]
    · (repeat' split) <;> exact .inr le_rfl
    · (repeat' split) <;> dsimp only <;> omega
    · (repeat' split) <;> dsimp only <;> omega
    · (repeat' split) <;> exact fun _ held => .inl held
  have sequenced (e : Dev) : e.Acts (e.updUplink fun u => { u with lastSeq := some (frameSeq bytes) }) :=
    Dev.acts_updUplink rfl rfl rfl rfl
  simp only [Dev.goodFrame]
  refine (good.trans (sequenced _)).trans ?_
  split
  · exact Dev.acts_parse ..
  · exact .rfl

theorem Dev.acts_frameEvent (bytes : List Byte) (d : Dev) : d.Acts (d.frameEvent bytes) := by
  have ended : d.Acts (d.updUplink fun u => { u with frameStart := none }) := Dev.acts_updUplink rfl rfl rfl rfl
  unfold Dev.frameEvent
  split
  · exact .rfl
  · split
    · refine ended.trans ?_
      dsimp only
      split
      · exact Dev.acts_goodFrame ..
      · exact Dev.acts_badFrame _
    · exact .rfl

theorem Dev.acts_startFrame (d : Dev) : d.Acts d.startFrame := by
  have started : d.Acts (d.updUplink fun u =>
      { u with frameStart := some d.timing.now, missingDue := some (d.timing.now + missingInterval) }) :=
    Dev.acts_updUplink rfl rfl rfl rfl
  simp only [Dev.startFrame]
  refine started.trans ?_
  split
  · exact Dev.acts_badFrame _
  · exact .rfl

theorem Dev.acts_missingDue (d : Dev) : d.Acts d.missingDue := by
  unfold Dev.missingDue
  split
  · exact .rfl
  · split
    · refine Dev.Acts.trans ?_ (Dev.acts_lockBad _)
      exact Dev.Acts.trans (Dev.acts_of_same (by simp)) (Dev.acts_updUplink rfl rfl rfl rfl)
    · exact .rfl

/-! ### The downlink (chapter 8) -/

theorem Dev.acts_sendCell (kind : CellKind) (bytes : List Byte) (d : Dev) : d.Acts (d.sendCell kind bytes) := by
  refine Dev.acts_cell rfl (.inl rfl) (.inl ?_)
  simp only [Dev.sendCell, Downlink.sent]
  split <;> omega

theorem Dev.acts_afterControl (d : Dev) : d.Acts d.afterControl := by
  unfold Dev.afterControl
  split
  · exact Dev.acts_replaySettle d
  · exact Dev.acts_replaySettle d
  · have counted : d.Acts { d with freeCount := d.freeCount + 1 } :=
      Dev.acts_of_same ⟨rfl, rfl, rfl, rfl, rfl, rfl, rfl, rfl, rfl, rfl⟩
    refine counted.trans ?_
    dsimp only
    split
    · exact (Dev.acts_replaySettle _).trans (Dev.acts_reofferResponse _)
    · exact (Dev.acts_reofferResponse _).trans (Dev.acts_replaySettle _)

theorem Dev.acts_updFetcher (r : ReaderId) (f : Fetcher → Fetcher) (d : Dev) : d.Acts (d.updFetcher r f) := by
  cases r
  · exact Dev.acts_of_same (by simp [Dev.updFetcher])
  · exact Dev.acts_replay rfl le_rfl le_rfl

theorem Dev.acts_lineSent (r : ReaderId) (last : Bool) (d : Dev) : d.Acts (d.lineSent r last) := by
  unfold Dev.lineSent
  split
  · exact Dev.acts_replayLineSent ..
  · split
    · exact .rfl
    · exact Dev.acts_liveLineSent ..

theorem Dev.acts_sendLine (r : ReaderId) (kind : CellKind) (d : Dev) : d.Acts (d.sendLine r kind) := by
  unfold Dev.sendLine
  split
  · exact .rfl
  · next i _ _ =>
    refine ((Dev.acts_sendCell kind (d.lineCell kind ((d.fetcher r).buf i)) d).trans
      (Dev.acts_updFetcher r (fun f => f.cellTaken i) _)).trans ?_
    dsimp only
    split
    · exact Dev.acts_lineSent ..
    · exact .rfl

theorem Dev.acts_boundary (d : Dev) : d.Acts d.boundary := by
  unfold Dev.boundary
  split
  · refine (Dev.acts_sendCell .control d.controlCell d).trans (Dev.Acts.trans ?_ (Dev.acts_afterControl _))
    exact Dev.acts_cell rfl (.inr rfl) (.inr rfl)
  · exact Dev.acts_sendLine ..
  · exact Dev.acts_sendLine ..
  · exact Dev.acts_sendCell ..

/-! ### Every command, and the step -/

/-- RESET stops head time and takes the lines low (R17, R86, R101); the pin itself is not said here. -/
theorem Dev.acts_assertReset (d : Dev) : d.Acts { d.assertReset with resetAsserted := d.resetAsserted } := by
  have stopped (e : Dev) : e.Acts { e with timing := { e.timing with now := 0 } } :=
    Dev.acts_clock rfl rfl rfl rfl rfl (List.Sublist.refl _)
  have lowered (e : Dev) : e.Acts { e with
      ring := { e.ring with frameStartHigh := false, frameStartEnd := none, slotLines := 0, phaseLines := 0 } } :=
    Dev.acts_lines rfl rfl rfl rfl (.inl (by simp))
  have lost (e : Dev) : e.Acts { e with uplink := { e.uplink with frameStart := none } } :=
    Dev.acts_uplink rfl (.inr le_rfl) (.inr rfl) (.inr rfl) fun _ h => .inl h
  have silent (e : Dev) : e.Acts { e with downlink := { e.downlink with lineOut := none } } :=
    Dev.acts_cell rfl (.inl rfl) (.inr rfl)
  exact (((stopped _).trans (lowered _)).trans (lost _)).trans (silent _)

theorem Dev.acts_endFrameStart (d : Dev) : d.Acts d.endFrameStart := by
  unfold Dev.endFrameStart
  split
  · exact Dev.acts_lines rfl rfl rfl rfl (.inl (by simp))
  · exact .rfl

theorem Dev.acts_takeRequest (ident : Nat) (op : BusOp) (d : Dev) : d.Acts (d.takeRequest ident op) := by
  unfold Dev.takeRequest
  split
  · exact .rfl
  · exact Dev.acts_path rfl (List.Sublist.refl _) rfl (.inr rfl)

theorem Dev.acts_expireIn (ctx tile : Nat) (d : Dev) : d.Acts (d.expireIn ctx tile) := by
  unfold Dev.expireIn
  split
  · exact .rfl
  · exact Dev.acts_expireTile ..

theorem Dev.acts_liveBegin?_getD (d : Dev) : d.Acts (d.liveBegin?.getD d) := by
  cases begun : d.liveBegin? with
  | none => exact .rfl
  | some e => exact Dev.acts_of_same (by simp [Dev.liveBegin?_frame begun])

/-- A change made only when its time has come. -/
theorem Dev.acts_if {b : Prop} [Decidable b] {e : Dev} (h : d.Acts e) : d.Acts (if b then e else d) := by
  split
  · exact h
  · exact .rfl

theorem Dev.acts_setGate (g : Gate) (d : Dev) : d.Acts (d.setGate g) :=
  Dev.acts_lines rfl rfl rfl rfl (.inr ⟨rfl, rfl⟩)

/-- What a command is: a change of the block that RESET holds off, a memory response that RESET holds off, or one of the
commands that RESET does not hold off. -/
inductive Effect : Instr → (State → Host.Outcome State Fault Refusal) → Prop
  /-- The command works unless RESET is asserted. -/
  | run {c : Instr} (f : Dev → Dev) : (∀ d : Dev, d.Acts (f d)) → Effect c (State.run f)
  /-- The command carries a memory response. -/
  | reply {c : Instr} (mine : Owner → Bool) (tag : Nat) (reply : MemReply) :
      Effect c (State.runReply (Dev.response mine tag reply))
  /-- RESET is asserted. -/
  | assert : Effect .resetAssert fun s => .next { s with dev := s.dev.assertReset }
  /-- Device reset is released. -/
  | release (straps : Straps) : Effect (.deviceReset straps) fun s => .next { s with dev := s.dev.release straps }
  /-- The memory is parked. -/
  | park : Effect .parkedAssert fun s => .next { s with dev := s.dev.setParked true }
  /-- The memory is no longer parked. -/
  | unpark : Effect .parkedWithdraw fun s => .next { s with dev := s.dev.setParked false }

/-- An order, carried out by moves. -/
theorem Effect.order {c : Instr} {f : Dev → Dev} (o : Instr) (h : ∀ d : Dev, d.Acts (f d)) :
    Effect c (State.run (Dev.takeOrder o f)) := .run _ (Dev.acts_takeOrder o h)

theorem effect_exec (c : Instr) : Effect c (exec c) := by
  cases c with
  | resetAssert => exact .assert
  | deviceReset straps => exact .release straps
  | headSideRequest ident op => exact .run _ (Dev.acts_takeRequest ident op)
  | grantDecision => exact .run _ Dev.acts_grant
  | stagingWrite off bytes => exact .run _ (Dev.acts_planPiece _ _)
  | commit word => exact .run _ (Dev.acts_planPiece _ _)
  | attentionAck causes => exact .run _ (Dev.acts_planPiece _ _)
  | returnConsumed addr => exact .run _ (Dev.acts_planPiece _ _)
  | memoryResponse tag reply => exact .reply Owner.any tag reply
  | parkedAssert => exact .park
  | parkedWithdraw => exact .unpark
  | reportTimer => exact .run (fun d => if d.reportIsDue then d.timedReport else d) fun d => Dev.acts_if (Dev.acts_timedReport d)
  | reportWriteDone tag reply => exact .reply Owner.isReport tag reply
  | anchorEvent => exact .run _ Dev.acts_anchorDue
  | capture => exact .run _ Dev.acts_captureDue
  | frameStartEnd => exact .run _ Dev.acts_endFrameStart
  | tileDeadlineExpiry ctx tile => exact .run _ (Dev.acts_expireIn ctx tile)
  | echoTimer => exact .run (fun d => if d.echoIsDue then d.sendEcho else d) fun d => Dev.acts_if (Dev.acts_sendEcho d)
  | headStatusTimer => exact .run (fun d => if d.statusIsDue then d.timedStatus else d) fun d => Dev.acts_if (Dev.acts_timedStatus d)
  | referenceLossDeadline => exact .run (fun d => if dueAt d.timing.now d.timing.lossDeadline then d.loseReference else d) fun d => Dev.acts_if (Dev.acts_loseReference d)
  | uplinkFrameStart => exact .run _ Dev.acts_startFrame
  | uplinkFrame bytes => exact .run _ (Dev.acts_frameEvent bytes)
  | missingFrameExpiry => exact .run _ Dev.acts_missingDue
  | reference count arrival => exact .run _ (Dev.acts_takeReference count arrival)
  | echoReturn seq stamp turnaround arrival => exact .run _ (Dev.acts_takeEcho seq stamp turnaround arrival)
  | credit n => exact .run _ (Dev.acts_addCredit _)
  | returnData bytes => exact .run _ (Dev.acts_stageReturn bytes)
  | gateRun tag => exact .order _ fun d => (Dev.acts_setGate _ d).trans (Dev.acts_respond ..)
  | gatePause tag => exact .order _ fun d => (Dev.acts_setGate _ d).trans (Dev.acts_respond ..)
  | gateStep tag => exact .order _ fun d => (Dev.acts_setGate _ d).trans (Dev.acts_respond ..)
  | gateMark tag n => exact .order _ fun d => (Dev.acts_setGate _ d).trans (Dev.acts_respond ..)
  | gateUnknownAction tag action => exact .order _ fun d => Dev.acts_respond ..
  | replay tag frame first count paced => exact .order _ fun d => (Dev.acts_queueReplay _ d).trans (Dev.acts_respond ..)
  | cancelCurrent tag =>
    refine .order _ fun d => Dev.Acts.trans ?_ (Dev.acts_respond ..)
    exact (Dev.acts_cancelRequest d).trans (Dev.acts_replaySettle _)
  | cancelAll tag =>
    refine .order _ fun d => Dev.Acts.trans ?_ (Dev.acts_respond ..)
    exact ((Dev.acts_cancelRequest d).trans (Dev.acts_cancelQueued _)).trans (Dev.acts_replaySettle _)
  | hold tag frame => exact .order _ fun d => (Dev.acts_holdFrame frame d).trans (Dev.acts_respond ..)
  | release tag frame => exact .order _ fun d => (Dev.acts_releaseFrame frame d).trans (Dev.acts_respond ..)
  | releaseAll tag => exact .order _ fun d => (Dev.Act.releaseEvery d).acts.trans (Dev.acts_respond ..)
  | clear tag => exact .order _ fun d => (Dev.acts_clearRing d).trans (Dev.acts_respond ..)
  | watchSet tag id addr len mode => exact .order _ fun d => Dev.acts_memOrder ..
  | watchSeedDone tag reply => exact .reply Owner.isSeed tag reply
  | watchClear tag id =>
    refine .order _ fun d => ?_
    split
    · exact Dev.Acts.trans (Dev.acts_of_same (by simp)) (Dev.acts_respond ..)
    · exact Dev.acts_respond ..
  | page tag n =>
    refine .order _ fun d => ?_
    split
    · exact Dev.Acts.trans (Dev.acts_of_same (by simp)) (Dev.acts_respond ..)
    · exact Dev.acts_respond ..
  | point tag addr =>
    refine .order _ fun d => ?_
    split
    · exact Dev.Acts.trans (Dev.acts_of_same (by simp)) (Dev.acts_respond ..)
    · exact Dev.acts_respond ..
  | read tag offset count => exact .order _ fun d => Dev.acts_memOrder ..
  | write tag offset bytes => exact .order _ fun d => Dev.acts_memOrder ..
  | readNext tag count => exact .order _ fun d => Dev.acts_memOrder ..
  | writeNext tag bytes => exact .order _ fun d => Dev.acts_memOrder ..
  | maskWrite tag offset value mask => exact .order _ fun d => Dev.acts_memOrder ..
  | maskWriteReadDone tag reply => exact .reply Owner.isMaskRead tag reply
  | remoteAccessDone tag reply => exact .reply Owner.isLastAccess tag reply
  | responseOffer => exact .run _ Dev.acts_reofferResponse
  | liveFetchBegin => exact .run _ Dev.acts_liveBegin?_getD
  | replayFetchBegin => exact .run _ Dev.acts_replayBegin?_getD
  | lineFetchResponse tag reply => exact .reply Owner.isFetch tag reply
  | replayEndOffer => exact .run _ Dev.acts_replaySettle
  | cellBoundary =>
    refine .run _ fun d => ?_
    exact Dev.acts_if (Dev.acts_boundary d)
  | drainWriteBegin => exact .run _ Dev.acts_drainExamine
  | drainWriteDone tag reply => exact .reply Owner.isFeed tag reply

/-- A block reached by elementary moves, but for the RESET pin. -/
def Dev.ActsUpToPin (d e : Dev) : Prop := ∃ b, d.Acts { e with resetAsserted := b }

theorem Dev.Acts.upToPin {e : Dev} (h : d.Acts e) : d.ActsUpToPin e := ⟨e.resetAsserted, h⟩

/-- Every effect answers with a block reached by elementary moves. -/
theorem Effect.acts {f : State → Host.Outcome State Fault Refusal} {c : Instr} {s t : State} (effect : Effect c f)
    (h : f s = .next t) : s.dev.ActsUpToPin t.dev := by
  cases effect with
  | run f acts =>
    unfold State.run at h
    split at h
    · cases h; exact Dev.Acts.rfl.upToPin
    · cases h; exact (acts _).upToPin
  | reply mine tag reply =>
    unfold State.runReply at h
    split at h
    · cases h; exact Dev.Acts.rfl.upToPin
    · split at h
      · next answered => cases h; exact (Dev.acts_response answered).upToPin
      · cases h
      · cases h
  | assert => cases h; exact ⟨_, s.dev.acts_assertReset⟩
  | release straps => cases h; exact (Dev.Act.reset s.dev straps).acts.upToPin
  | park => cases h; exact Dev.Acts.upToPin (Dev.acts_path rfl (List.Sublist.refl _) rfl (.inr rfl))
  | unpark => cases h; exact Dev.Acts.upToPin (Dev.acts_path rfl (List.Sublist.refl _) rfl (.inr rfl))

theorem State.acts_idle (s : State) : s.dev.Acts s.idle.dev := by
  unfold State.idle
  split
  · exact .rfl
  · split
    · exact Dev.acts_clock rfl rfl rfl rfl rfl (List.Sublist.refl _)
    · exact .rfl
    · exact Dev.acts_of_same ⟨rfl, rfl, rfl, rfl, rfl, rfl, rfl, rfl, rfl, rfl⟩

/-- Every step answers with a block reached by elementary moves. -/
theorem acts_step {s t : State} (h : step s = .next t) : s.dev.ActsUpToPin t.dev := by
  unfold step at h
  split at h
  · cases h; exact s.acts_idle.upToPin
  · next c cs _ => exact (effect_exec c).acts (s := { s with pending := cs }) h

/-- An invariant that does not speak of the RESET pin, and that every elementary move keeps, is kept by every step. -/
theorem step_keeps {P : Dev → Prop} (free : ∀ d b, P { d with resetAsserted := b } → P d)
    (keeps : ∀ d e, Dev.Act d e → P d → P e) {s t : State} (safe : P s.dev) (h : step s = .next t) : P t.dev := by
  obtain ⟨b, acts⟩ := acts_step h
  exact free t.dev b (acts.keeps keeps safe)

end

end Sys2Proof.Machine
end

section
/-! SUPPORT. What every elementary move keeps: the control queue (O5), the memory path (O6), the counts of the uplink, the
timing generator and the replay reader (O7). -/

namespace Sys2Proof.Machine

section
variable {d e : Dev}

/-! ### The control queue (O5) -/

theorem Entry.one_le_threshold (x : Entry) : 1 ≤ x.threshold := by cases x <;> simp [Entry.threshold]

theorem Entry.isWatch_coalesce (x : Entry) (id : Nat) (value : List Byte) (time : HeadTime) :
    (x.coalesce value time).isWatch id = x.isWatch id := by cases x <;> rfl

/-- Rewriting a WATCH entry leaves the number of WATCH entries of each id. -/
theorem countP_isWatch_rewrite (l : List Entry) (id i : Nat) (value : List Byte) (time : HeadTime) :
    (l.map fun x => if x.isWatch i then x.coalesce value time else x).countP (Entry.isWatch id) =
      l.countP (Entry.isWatch id) := by
  rw [List.countP_map]
  refine List.countP_congr fun x _ => ?_
  simp only [Function.comp_apply]
  split
  · rw [Entry.isWatch_coalesce]
  · rfl

/-- An entry appended while one is free, and no second WATCH entry of an id. -/
theorem Dev.QueueSafe.enqueue {x : Entry} (safe : d.QueueSafe) (room : x.threshold ≤ 64 - d.downlink.ctrl.length)
    (fresh : ∀ id, x.isWatch id = true → d.downlink.ctrl.any (Entry.isWatch id) = false) :
    (d.enqueue x).QueueSafe := by
  obtain ⟨length, since, watches, held⟩ := safe
  have threshold := x.one_le_threshold
  refine ⟨by simp only [Dev.enqueue, List.length_append, List.length_singleton]; omega, since, fun id => ?_, held⟩
  simp only [Dev.enqueue, List.countP_append, List.countP_singleton]
  split
  · next watch =>
    have none : d.downlink.ctrl.countP (Entry.isWatch id) = 0 := by
      rw [List.countP_eq_zero]
      exact fun y hy => List.any_eq_false.mp (fresh id watch) y hy
    omega
  · have one := watches id
    omega

theorem Dev.QueueSafe.offerWatch (safe : d.QueueSafe) (id : Nat) (value : List Byte) (time : HeadTime) :
    (d.offerWatch id value time).1.QueueSafe := by
  rcases d.offerWatch_cases id value time with ⟨-, rewritten⟩ | ⟨none, room, appended⟩ | ⟨-, -, dropped⟩
  · obtain ⟨length, since, watches, held⟩ := safe
    rw [rewritten]
    refine ⟨by simpa using length, since, fun i => ?_, held⟩
    exact (countP_isWatch_rewrite d.downlink.ctrl i id value time).le.trans (watches i)
  · rw [appended]
    refine safe.enqueue (by simp only [Entry.threshold]; omega) fun i same => ?_
    obtain rfl : id = i := of_decide_eq_true same
    exact none
  · rw [dropped]; simpa [Dev.QueueSafe] using safe

theorem Dev.Act.queueSafe (act : Dev.Act d e) (safe : d.QueueSafe) : e.QueueSafe := by
  obtain ⟨length, since, watches, held⟩ := id safe
  cases act with
  | append x room allowed =>
    refine safe.enqueue room fun id watch => ?_
    rcases allowed with never | holds
    · rw [never id] at watch; cases watch
    · obtain ⟨kind, tag, status, data, rfl⟩ := held x holds
      cases watch
  | watch id value time => exact safe.offerWatch id value time
  | cell x ctrl count =>
    rcases ctrl with same | empty
    · exact ⟨same ▸ length, count.elim id fun h => h ▸ since, same ▸ watches, held⟩
    · exact ⟨empty ▸ Nat.zero_le _, count.elim id fun h => h ▸ since, empty ▸ fun _ => Nat.zero_le _, held⟩
  | uplink u _ _ _ holds =>
    exact ⟨length, since, watches, fun x hx => (holds x hx).elim (held x) id⟩
  | reset straps => simp [Dev.QueueSafe, Dev.release, Dev.released]
  | _ => simpa [Dev.QueueSafe] using safe

/-! ### The memory path (O6) -/

theorem Dev.PathSafe.sublist {m : MemPath} (safe : d.PathSafe) (records : m.inflight.Sublist d.mem.inflight)
    (tag : m.nextTag = d.mem.nextTag) (steal : m.steal ≤ 16 ∨ m.steal = d.mem.steal) :
    Dev.PathSafe { d with mem := m } := by
  obtain ⟨length, counter, given, nodup⟩ := safe
  refine ⟨records.length_le.trans length, by rcases steal with h | h <;> simp only [] <;> omega, fun r hr => ?_,
    (records.map _).nodup nodup⟩
  rw [tag]
  exact given r (records.subset hr)

theorem Dev.PathSafe.issue {owner : Owner} {op : BusOp} {handle : List HandleEntry} (safe : d.PathSafe)
    (room : d.mem.inflight.length < 64) : (d.issue owner op handle).PathSafe := by
  obtain ⟨length, counter, given, nodup⟩ := safe
  refine ⟨?_, counter, fun r hr => ?_, ?_⟩
  · simp only [Dev.issue, MemPath.issue, List.length_append, List.length_singleton]; omega
  · rcases List.mem_append.mp hr with old | new
    · exact Nat.lt_succ_of_lt (given r old)
    · obtain rfl := List.mem_singleton.mp new
      exact Nat.lt_succ_self _
  · simp only [Dev.issue, MemPath.issue, List.map_append, List.map_singleton]
    refine nodup.append (List.nodup_singleton _) fun tag old new => ?_
    obtain ⟨r, hr, same⟩ := List.mem_map.mp old
    have below := given r hr
    rw [List.mem_singleton.mp new] at same
    omega

theorem Dev.Act.pathSafe (act : Dev.Act d e) (safe : d.PathSafe) : e.PathSafe := by
  cases act with
  | path m records tag steal => exact safe.sublist records tag steal
  | issue owner op handle room _ => exact safe.issue room
  | reset straps => simp [Dev.PathSafe, Dev.release, Dev.released]
  | _ => simpa [Dev.PathSafe] using safe

/-! ### The uplink, the timing generator and the replay reader (O7) -/

theorem Dev.Act.uplinkSafe (act : Dev.Act d e) (safe : d.UplinkSafe) : e.UplinkSafe := by
  cases act with
  | uplink u orders good bad _ =>
    obtain ⟨length, run, badRun⟩ := safe
    refine ⟨?_, ?_, ?_⟩ <;> simp only [] <;> omega
  | reset straps => simp [Dev.UplinkSafe, Dev.release, Dev.released]
  | _ => simpa [Dev.UplinkSafe] using safe

theorem Dev.timingSafe_iff (d : Dev) : d.TimingSafe ↔
    d.timing.delay ≤ 32767 ∧ d.timing.outlierRun ≤ 3 ∧ d.timing.genlock.Fits d.timing.lockRun := Iff.rfl

/-- A sample taken leaves the delay a mean of delays, and an outlier run below the reseed (R106, R107). -/
theorem Timing.filter_bounds {t : Timing} {n : Nat} (delay : t.delay ≤ 32767) (run : t.outlierRun ≤ 3)
    (sample : n ≤ 32767) : (t.filter n).delay ≤ 32767 ∧ (t.filter n).outlierRun ≤ 3 ∧
      (t.filter n).genlock = t.genlock ∧ (t.filter n).lockRun = t.lockRun := by
  have mean : filtered t.delay n ≤ 32767 := by unfold filtered; omega
  unfold Timing.filter
  split
  · exact ⟨sample, run, rfl, rfl⟩
  · split
    · split
      · exact ⟨sample, Nat.zero_le _, rfl, rfl⟩
      · exact ⟨delay, by simp only []; omega, rfl, rfl⟩
    · exact ⟨mean, Nat.zero_le _, rfl, rfl⟩

theorem Dev.Act.timingSafe (act : Dev.Act d e) (safe : d.TimingSafe) : e.TimingSafe := by
  rw [Dev.timingSafe_iff] at safe ⊢
  obtain ⟨delay, outlier, fits⟩ := id safe
  cases act with
  | clock t sameDelay sameOutlier sameGenlock sameRun _ =>
    rw [sameDelay, sameOutlier, sameGenlock, sameRun]; exact safe
  | sample n bound =>
    obtain ⟨delay', outlier', genlock, run⟩ := Timing.filter_bounds delay outlier bound
    exact ⟨delay', outlier', by rw [genlock, run]; exact fits⟩
  | genlock g run moved => exact ⟨delay, outlier, moved⟩
  | group p a _ => exact safe
  | reset straps => simp [Dev.release, Dev.released, Genlock.Fits]
  | _ => simpa using safe

theorem Dev.Act.replaySafe (act : Dev.Act d e) (safe : d.ReplaySafe) : e.ReplaySafe := by
  cases act with
  | replay r queue credit =>
    obtain ⟨length, most⟩ := safe
    exact ⟨by simp only []; omega, by simp only []; omega⟩
  | reset straps => simp [Dev.ReplaySafe, Dev.release, Dev.released]
  | _ => simpa [Dev.ReplaySafe] using safe

end

/-- Settles O5: an entry joins the control queue only with its threshold free, a WATCH entry only beside none of its id, and
the executor is given a RESPONSE alone to hold. -/
theorem queueStaysSafe : Obligations.QueueStaysSafe := fun _ _ safe h =>
  step_keeps (fun _ _ => id) (fun _ _ act => act.queueSafe) safe h

/-- Settles O6: only a grant adds a record, with a tag not given before and with fewer than 64 in flight. -/
theorem pathStaysSafe : Obligations.PathStaysSafe := fun _ _ safe h =>
  step_keeps (fun _ _ => id) (fun _ _ act => act.pathSafe) safe h

/-- Settles O7: each of the three parts is kept by every elementary move. -/
theorem countsStaySafe : Obligations.CountsStaySafe := fun _ _ uplink timing replay h =>
  ⟨step_keeps (fun _ _ => id) (fun _ _ act => act.uplinkSafe) uplink h,
    step_keeps (fun _ _ => id) (fun _ _ act => act.timingSafe) timing h,
    step_keeps (fun _ _ => id) (fun _ _ act => act.replaySafe) replay h⟩

end Sys2Proof.Machine
end

section
/-! SUPPORT. What validation says of a plan (R20 to R23), and the safety of the plans, the return feed and the capture
schedule (O10). -/

namespace Sys2Proof.Machine

/-- One group's place in the order of validation. -/
theorem check_eq_none_iff (b : Bool) (r : Group) (rest : Option Group) :
    (if !b then some r else rest) = none ↔ b = true ∧ rest = none := by
  cases b <;> simp

/-- A snapshot is valid when every group's checks pass (R20). -/
theorem Staged.failure_eq_none_iff (g : Staged) (planAddr mem : Nat) : g.failure planAddr mem = none ↔
    g.ringOk planAddr mem = true ∧ g.slotsOk = true ∧ g.speedOk = true ∧ g.periodOk = true ∧ g.formatOk = true ∧
      g.stripsOk = true ∧ g.tilesOk = true ∧ g.returnOk planAddr mem = true := by
  simp only [Staged.failure, check_eq_none_iff, and_true]

section
variable {p : Plan}

theorem Memory.staged_lengths (m : Memory) : m.staged.strips.length = min 4 m.staged.stripCount ∧
    m.staged.tiles.length = min 8 m.staged.tileCount := by
  simp [Memory.staged]

/-- A validated plan lies within the limits (R20 to R23). -/
theorem Plan.Validated.limits (h : p.Validated) : p.Limits := by
  obtain ⟨m, planAddr, mem, valid, rfl⟩ := h
  obtain ⟨-, slots, speed, period, format, strips, tiles, ret⟩ := (Staged.failure_eq_none_iff ..).mp valid
  have rowCount : m.staged.rowCount < 64 := Nat.mod_lt _ (by decide)
  obtain ⟨stripsLen, tilesLen⟩ := m.staged_lengths
  simp only [Staged.slotsOk, Bool.and_eq_true, decide_eq_true_eq] at slots
  simp only [Staged.speedOk, List.contains_iff_mem, List.mem_cons, List.not_mem_nil, or_false] at speed
  simp only [Staged.periodOk, Bool.and_eq_true, decide_eq_true_eq] at period
  simp only [Staged.formatOk, Bool.and_eq_true, decide_eq_true_eq] at format
  simp only [Staged.stripsOk, Bool.and_eq_true, decide_eq_true_eq] at strips
  simp only [Staged.tilesOk, Bool.and_eq_true, decide_eq_true_eq] at tiles
  simp only [Staged.returnOk, Bool.or_eq_true, Bool.and_eq_true, decide_eq_true_eq] at ret
  have share : m.staged.startAllowance = 0 → 1 ≤ m.staged.period / m.staged.speed := fun _ =>
    Nat.div_pos (by omega) (by omega)
  have ring : ringLimits m.staged.retStart m.staged.retEnd := by unfold ringLimits; omega
  have advance : (if m.staged.period ≤ m.staged.advance then m.staged.period - 1 else m.staged.advance) <
      m.staged.period := by split <;> omega
  have lockWindow : 1 ≤ (if m.staged.lockWindow = 0 then 1 else
        if 4095 < m.staged.lockWindow then 4095 else m.staged.lockWindow) ∧
      (if m.staged.lockWindow = 0 then 1 else
        if 4095 < m.staged.lockWindow then 4095 else m.staged.lockWindow) ≤ 4095 := by
    split
    · omega
    · split <;> omega
  have rowCount : 1 ≤ (if m.staged.rowCount = 0 then 1 else m.staged.rowCount) ∧
      (if m.staged.rowCount = 0 then 1 else m.staged.rowCount) ≤ 63 := by split <;> omega
  have startAllowance : 1 ≤ if m.staged.startAllowance = 0 then m.staged.period / m.staged.speed
      else m.staged.startAllowance := by split <;> omega
  simp only [Plan.Limits, Plan.clamp, Staged.toPlan]
  exact ⟨by omega, by omega, by omega, by omega, by omega, by omega, advance, lockWindow.1, lockWindow.2, rowCount.1,
    rowCount.2, startAllowance, by omega, by omega, by omega, by omega, by omega, by omega, by omega, by omega, by omega,
    by omega, ring⟩

/-- Every tile of a validated plan has a row, and every row a byte (R21). -/
theorem Plan.Validated.tilesFilled (h : p.Validated) : p.TilesFilled := by
  obtain ⟨m, planAddr, mem, valid, rfl⟩ := h
  obtain ⟨-, -, -, -, format, strips, tiles, -⟩ := (Staged.failure_eq_none_iff ..).mp valid
  intro t ht
  have inside : t < m.staged.tiles.length := ht
  have here : m.staged.toPlan.clamp.tileAt t = m.staged.tiles[t] := by simp [Plan.tileAt, Plan.clamp, Staged.toPlan, inside]
  rw [here]
  simp only [Staged.formatOk, Bool.and_eq_true, decide_eq_true_eq] at format
  simp only [Staged.stripsOk, Bool.and_eq_true, List.all_eq_true, decide_eq_true_eq] at strips
  simp only [Staged.tilesOk, Bool.and_eq_true, List.all_eq_true] at tiles
  have ok := tiles.1.1.2 _ (List.getElem_mem inside)
  simp only [Plan.tileOk, Bool.and_eq_true, decide_eq_true_eq] at ok
  have strip : m.staged.tiles[t].strip < m.staged.strips.length := by simpa [Staged.toPlan] using ok.1.1.1.1.1.1.1.1
  have height := strips.1.2 _ (List.getElem_mem strip)
  constructor
  · simp [Plan.rows, Plan.stripAt, Plan.clamp, Staged.toPlan, strip]; omega
  · exact Nat.mul_pos (by omega) (by simp only [Plan.clamp, Staged.toPlan]; omega)

end

section
variable {d e : Dev}

/-! ### Plans, feed and schedule (O10) -/

theorem Dev.Act.planSafe (act : Dev.Act d e) (safe : d.PlanSafe) : e.PlanSafe := by
  obtain ⟨shadow, live, pending, working⟩ := id safe
  cases act with
  | apply w allowed =>
    refine ⟨shadow, live, fun _ waits => (nomatch waits), fun v hv => ?_⟩
    obtain rfl := Option.some.inj hv
    exact allowed.elim (pending w) Plan.Validated.limits
  | pend w valid =>
    refine ⟨shadow, live, fun v hv => ?_, working⟩
    obtain rfl := Option.some.inj hv
    exact valid.limits
  | words shadow' live' last shadowWf liveWf => exact ⟨shadowWf shadow, liveWf live, pending, working⟩
  | reset straps => simp [Dev.PlanSafe, Dev.release, Dev.released, Memory.wf, Memory.wfFrom]
  | _ => simpa [Dev.PlanSafe] using safe

theorem Dev.Act.feedSafe (act : Dev.Act d e) (safe : d.FeedSafe) : e.FeedSafe := by
  obtain ⟨feed, plan⟩ := safe
  refine ⟨?_, act.planSafe plan⟩
  cases act with
  | feed f moved => exact moved plan feed
  | reset straps => simp [Feed.Safe, Feed.DrainFits, Feed.inForce, ringLimits, Dev.release, Dev.released]
  | _ => simpa using feed

/-- The group of a plan has one in-group capture for each phase above 0 (R112, R113). -/
theorem Timing.buildGroup_inGroup_length (t : Timing) (p : Plan) (a : HeadTime) :
    (t.buildGroup p a).inGroup.length = p.speed - 1 := by
  simp [Timing.buildGroup, Plan.group]

theorem Timing.filter_inGroup (t : Timing) (n : Nat) : (t.filter n).inGroup = t.inGroup := by
  unfold Timing.filter
  (repeat' split) <;> rfl

theorem Dev.Act.scheduleSafe (act : Dev.Act d e) (safe : d.ScheduleSafe) : e.ScheduleSafe := by
  obtain ⟨schedule, plan⟩ := safe
  refine ⟨?_, act.planSafe plan⟩
  cases act with
  | clock t _ _ _ _ rest => exact rest.length_le.trans schedule
  | group p a working =>
    obtain ⟨w, working, rfl⟩ := Option.map_eq_some_iff.mp working
    have limits := plan.2.2.2 w ‹_›
    simp only [Timing.buildGroup_inGroup_length]
    unfold Plan.Limits at limits
    omega
  | sample n _ => rw [← Timing.filter_inGroup d.timing n] at schedule; exact schedule
  | reset straps => simp [Dev.release, Dev.released]
  | _ => simpa using schedule

end

/-- Settles O10: the moves of the feed keep the room of 64 bytes, a group has as many captures as its plan's speed, and a
plan goes to work only validated. -/
theorem feedAndScheduleStaySafe : Obligations.FeedAndScheduleStaySafe :=
  ⟨fun _ _ safe h => step_keeps (fun _ _ => id) (fun _ _ act => act.feedSafe) safe h,
    fun _ _ safe h => step_keeps (fun _ _ => id) (fun _ _ act => act.scheduleSafe) safe h⟩

end Sys2Proof.Machine
end

section
/-! SUPPORT. Damage lists (section 4.3): adding a range keeps R61's form and loses no row. -/

namespace Sys2Proof.Machine

/-! ### Inserting a range at its place -/

theorem insertRange_perm (r : RowRange) (l : List RowRange) : (insertRange r l).Perm (r :: l) := by
  induction l with
  | nil => exact List.Perm.refl _
  | cons q qs ih =>
    unfold insertRange
    split
    · exact List.Perm.refl _
    · exact (ih.cons q).trans (List.Perm.swap r q qs)

/-- A range apart from every range of an ascending list is inserted between two of them. -/
theorem insertRange_pairwise {r : RowRange} {l : List RowRange} (sorted : l.Pairwise fun a b => a.last + 1 < b.first)
    (apart : ∀ q ∈ l, q.first ≤ q.last ∧ (q.last + 1 < r.first ∨ r.last + 1 < q.first)) (proper : r.first ≤ r.last) :
    (insertRange r l).Pairwise fun a b => a.last + 1 < b.first := by
  induction l with
  | nil => exact List.pairwise_singleton _ r
  | cons q qs ih =>
    obtain ⟨below, sorted⟩ := List.pairwise_cons.mp sorted
    obtain ⟨q_proper, q_apart⟩ := apart q List.mem_cons_self
    unfold insertRange
    split
    · have next : r.last + 1 < q.first := by omega
      refine List.pairwise_cons.mpr ⟨fun x hx => ?_, List.pairwise_cons.mpr ⟨below, sorted⟩⟩
      rcases List.mem_cons.mp hx with rfl | later
      · exact next
      · have step := below x later
        omega
    · refine List.pairwise_cons.mpr ⟨fun x hx => ?_, ih sorted fun y hy => apart y (List.mem_cons_of_mem _ hy)⟩
      rcases List.mem_cons.mp ((insertRange_perm r qs).mem_iff.mp hx) with rfl | later
      · omega
      · exact below x later

/-! ### The hull of the ranges met -/

/-- A running minimum is the start or one of the values, and at most each of them. -/
theorem foldl_min_cases {α : Type} (g : α → Nat) (l : List α) (m : Nat) :
    (l.foldl (fun m x => min m (g x)) m = m ∨ ∃ x ∈ l, l.foldl (fun m x => min m (g x)) m = g x) ∧
      l.foldl (fun m x => min m (g x)) m ≤ m ∧ ∀ x ∈ l, l.foldl (fun m x => min m (g x)) m ≤ g x := by
  induction l generalizing m with
  | nil => simp
  | cons x l ih =>
    obtain ⟨value, start, each⟩ := ih (min m (g x))
    simp only [List.foldl_cons, List.mem_cons, forall_eq_or_imp, exists_eq_or_imp]
    refine ⟨?_, by omega, by omega, each⟩
    rcases value with same | ⟨y, hy, same⟩
    · omega
    · exact .inr (.inr ⟨y, hy, same⟩)

/-- A running maximum is the start or one of the values, and at least each of them. -/
theorem foldl_max_cases {α : Type} (g : α → Nat) (l : List α) (m : Nat) :
    (l.foldl (fun m x => max m (g x)) m = m ∨ ∃ x ∈ l, l.foldl (fun m x => max m (g x)) m = g x) ∧
      m ≤ l.foldl (fun m x => max m (g x)) m ∧ ∀ x ∈ l, g x ≤ l.foldl (fun m x => max m (g x)) m := by
  induction l generalizing m with
  | nil => simp
  | cons x l ih =>
    obtain ⟨value, start, each⟩ := ih (max m (g x))
    simp only [List.foldl_cons, List.mem_cons, forall_eq_or_imp, exists_eq_or_imp]
    refine ⟨?_, by omega, by omega, each⟩
    rcases value with same | ⟨y, hy, same⟩
    · omega
    · exact .inr (.inr ⟨y, hy, same⟩)

section
variable {rows f l : Nat} {list : List RowRange}

theorem RowRange.meets_iff (f l : Nat) (r : RowRange) : r.meets f l = true ↔ r.first ≤ l + 1 ∧ f ≤ r.last + 1 := by
  simp [RowRange.meets]

/-- Two different ranges of a damage list lie apart. -/
theorem RangesSafe.apart (safe : RangesSafe rows list) {a b : RowRange} (ha : a ∈ list) (hb : b ∈ list) (ne : a ≠ b) :
    a.last + 1 < b.first ∨ b.last + 1 < a.first := by
  obtain ⟨i, hi, rfl⟩ := List.mem_iff_getElem.mp ha
  obtain ⟨j, hj, rfl⟩ := List.mem_iff_getElem.mp hb
  have sorted := List.pairwise_iff_getElem.mp safe.2.2
  rcases lt_trichotomy i j with less | same | more
  · exact .inl (sorted i j hi hj less)
  · subst same; exact absurd rfl ne
  · exact .inr (sorted j i hj hi more)

/-- Of two ranges of a damage list the one that begins earlier ends well before the other. -/
theorem RangesSafe.apart_of_lt (safe : RangesSafe rows list) {a b : RowRange} (ha : a ∈ list) (hb : b ∈ list)
    (lt : a.first < b.first) : a.last + 1 < b.first := by
  have proper := (safe.2.1 b hb).1
  have ne : a ≠ b := by rintro rfl; omega
  rcases safe.apart ha hb ne with before | after <;> omega

/-- A range that meets none of a damage list with room goes to its place (R62). -/
theorem RangesSafe.insert {r : RowRange} (safe : RangesSafe rows list) (room : list.length < 8)
    (proper : r.first ≤ r.last) (inside : r.last < rows)
    (apart : ∀ q ∈ list, q.last + 1 < r.first ∨ r.last + 1 < q.first) : RangesSafe rows (insertRange r list) := by
  obtain ⟨-, ranges, sorted⟩ := safe
  refine ⟨?_, fun q hq => ?_, insertRange_pairwise sorted (fun q hq => ⟨(ranges q hq).1, apart q hq⟩) proper⟩
  · rw [(insertRange_perm r list).length_eq, List.length_cons]; omega
  · rcases List.mem_cons.mp ((insertRange_perm r list).mem_iff.mp hq) with rfl | old
    · exact ⟨proper, inside⟩
    · exact ranges q old

theorem RangesSafe.filter (safe : RangesSafe rows list) (keep : RowRange → Bool) : RangesSafe rows (list.filter keep) :=
  ⟨(List.length_filter_le ..).trans safe.1, fun r hr => safe.2.1 r (List.mem_of_mem_filter hr), safe.2.2.filter keep⟩

/-- The rows of a list after an insertion. -/
theorem rowIn_insertRange (r : RowRange) (list : List RowRange) (row : Nat) :
    rowIn (insertRange r list) row ↔ (r.first ≤ row ∧ row ≤ r.last) ∨ rowIn list row := by
  simp only [rowIn, (insertRange_perm r list).mem_iff, List.mem_cons, exists_eq_or_imp]

/-! ### The three cases of R62 and R63 -/

/-- The ranges that [f, l] meets. -/
def metBy (f l : Nat) (list : List RowRange) : List RowRange := list.filter (RowRange.meets f l)

theorem mem_metBy {r : RowRange} : r ∈ metBy f l list ↔ r ∈ list ∧ r.first ≤ l + 1 ∧ f ≤ r.last + 1 := by
  rw [metBy, List.mem_filter, RowRange.meets_iff]

/-- The first row of the range that takes the last ones in at an overflow (R63). -/
def overflowFirst (f : Nat) (list : List RowRange) : Nat :=
  min f (min ((list[6]?.map (·.first)).getD f) ((list[7]?.map (·.first)).getD f))

theorem addRange_of_none (h : metBy f l list = []) (room : list.length < 8) :
    addRange rows f l list = insertRange { first := f, last := l, overflow := false } list := by
  unfold metBy at h
  simp [addRange, h, room]

theorem addRange_of_full (h : metBy f l list = []) (full : 8 ≤ list.length) : addRange rows f l list =
    list.filter (fun r => r.first < overflowFirst f list) ++
      [{ first := overflowFirst f list, last := rows - 1, overflow := true }] := by
  unfold metBy at h
  simp [addRange, h, Nat.not_lt.mpr full, overflowFirst]

theorem addRange_of_met (h : metBy f l list ≠ []) : addRange rows f l list =
    insertRange (hull f l (metBy f l list)) (list.filter fun r => !r.meets f l) := by
  unfold metBy at h ⊢
  simp only [addRange, List.isEmpty_iff, h, if_false]

/-- Of the ranges that [f, l] does not meet each lies before or behind it. -/
theorem apart_of_not_met {q : RowRange} (h : q.meets f l = false) : q.last + 1 < f ∨ l + 1 < q.first := by
  simp only [RowRange.meets, Bool.and_eq_false_iff, decide_eq_false_iff_not] at h
  omega

/-- The overflow begins with [f, l] or with a range of the list. -/
theorem overflowFirst_spec (f : Nat) (list : List RowRange) (full : list.length = 8) :
    (overflowFirst f list = f ∨ ∃ x ∈ list, overflowFirst f list = x.first) ∧ overflowFirst f list ≤ f ∧
      ∃ x ∈ list, overflowFirst f list ≤ x.first := by
  have sixth : (list[6]?.map (·.first)).getD f = list[6].first := by
    rw [List.getElem?_eq_getElem (by omega)]; rfl
  have seventh : (list[7]?.map (·.first)).getD f = list[7].first := by
    rw [List.getElem?_eq_getElem (by omega)]; rfl
  unfold overflowFirst
  rw [sixth, seventh]
  refine ⟨?_, by omega, list[6], List.getElem_mem _, by omega⟩
  rcases Nat.le_total f (min list[6].first list[7].first) with own | other
  · exact .inl (Nat.min_eq_left own)
  · rcases Nat.le_total list[6].first list[7].first with six | seven
    · exact .inr ⟨list[6], List.getElem_mem _, by omega⟩
    · exact .inr ⟨list[7], List.getElem_mem _, by omega⟩

/-- The hull covers [f, l] and the ranges met, begins with one of them and ends with one of them. -/
theorem hull_spec (f l : Nat) (hit : List RowRange) :
    ((hull f l hit).first = f ∨ ∃ r ∈ hit, (hull f l hit).first = r.first) ∧
    ((hull f l hit).last = l ∨ ∃ r ∈ hit, (hull f l hit).last = r.last) ∧
    (hull f l hit).first ≤ f ∧ l ≤ (hull f l hit).last ∧
    ∀ r ∈ hit, (hull f l hit).first ≤ r.first ∧ r.last ≤ (hull f l hit).last := by
  obtain ⟨first, lower, each⟩ := foldl_min_cases (·.first) hit f
  obtain ⟨last, upper, all⟩ := foldl_max_cases (·.last) hit l
  exact ⟨first, last, lower, upper, fun r hr => ⟨each r hr, all r hr⟩⟩

/-- The hull lies apart from every range not met. -/
theorem RangesSafe.apart_hull (safe : RangesSafe rows list) {q : RowRange} (hq : q ∈ list)
    (free : q.meets f l = false) : q.last + 1 < (hull f l (metBy f l list)).first ∨
      (hull f l (metBy f l list)).last + 1 < q.first := by
  obtain ⟨first, last, -, -, -⟩ := hull_spec f l (metBy f l list)
  have apart (r : RowRange) (hr : r ∈ metBy f l list) :
      r.first ≤ l + 1 ∧ f ≤ r.last + 1 ∧ r.first ≤ r.last ∧ (q.last + 1 < r.first ∨ r.last + 1 < q.first) := by
    obtain ⟨mem, low, high⟩ := mem_metBy.mp hr
    have ne : q ≠ r := by
      rintro rfl
      rw [(RowRange.meets_iff ..).mpr ⟨low, high⟩] at free
      cases free
    exact ⟨low, high, (safe.2.1 r mem).1, safe.apart hq mem ne⟩
  have proper := (safe.2.1 q hq).1
  rcases apart_of_not_met free with before | behind
  · left
    rcases first with own | ⟨r, hr, same⟩
    · omega
    · have where_ := apart r hr; omega
  · right
    rcases last with own | ⟨r, hr, same⟩
    · omega
    · have where_ := apart r hr; omega

/-- R62 and R63 keep a damage list as R61 wants it. -/
theorem RangesSafe.add (safe : RangesSafe rows list) (proper : f ≤ l) (inside : l < rows) :
    RangesSafe rows (addRange rows f l list) := by
  obtain ⟨length, ranges, sorted⟩ := id safe
  by_cases met : metBy f l list = []
  · by_cases room : list.length < 8
    · rw [addRange_of_none met room]
      refine safe.insert room proper inside fun q hq => apart_of_not_met ?_
      exact Bool.eq_false_iff.mpr fun meets => List.eq_nil_iff_forall_not_mem.mp met q (List.mem_filter.mpr ⟨hq, meets⟩)
    · rw [addRange_of_full met (by omega)]
      obtain ⟨start, below, x, hx, later⟩ := overflowFirst_spec f list (by omega)
      have fewer : (list.filter fun r => r.first < overflowFirst f list).length < list.length := by
        rw [List.length_filter_lt_length_iff_exists]
        exact ⟨x, hx, by simpa using later⟩
      refine ⟨by simp only [List.length_append, List.length_singleton]; omega, fun r hr => ?_, ?_⟩
      · rcases List.mem_append.mp hr with old | new
        · exact ranges r (List.mem_of_mem_filter old)
        · obtain rfl := List.mem_singleton.mp new
          exact ⟨by simp only []; omega, by simp only []; omega⟩
      · refine List.pairwise_append.mpr ⟨sorted.filter _, List.pairwise_singleton .., fun a ha b hb => ?_⟩
        obtain rfl := List.mem_singleton.mp hb
        obtain ⟨mem, first⟩ := List.mem_filter.mp ha
        have first : a.first < overflowFirst f list := of_decide_eq_true first
        rcases start with own | ⟨y, hy, same⟩
        · have free : a.meets f l = false :=
            Bool.eq_false_iff.mpr fun meets => List.eq_nil_iff_forall_not_mem.mp met a (List.mem_filter.mpr ⟨mem, meets⟩)
          have apart := apart_of_not_met free
          simp only [] at *
          omega
        · have apart := safe.apart_of_lt mem hy (by omega)
          simp only [] at *
          omega
  · rw [addRange_of_met met]
    obtain ⟨-, last, lower, upper, -⟩ := hull_spec f l (metBy f l list)
    obtain ⟨r, hr⟩ := List.exists_mem_of_ne_nil _ met
    obtain ⟨mem, meets⟩ := List.mem_filter.mp hr
    have fewer : (list.filter fun r => !r.meets f l).length < list.length := by
      rw [List.length_filter_lt_length_iff_exists]
      exact ⟨r, mem, by simpa using meets⟩
    refine (safe.filter _).insert (by omega) (by omega) ?_ fun q hq => ?_
    · rcases last with own | ⟨x, hx, same⟩
      · omega
      · have within := ranges x (mem_metBy.mp hx).1
        omega
    · obtain ⟨hq, free⟩ := List.mem_filter.mp hq
      exact safe.apart_hull hq (by simpa using free)

/-- R62 and R63 lose no damaged row. -/
theorem RangesSafe.rowIn_add (safe : RangesSafe rows list) (inside : l < rows) {row : Nat}
    (h : rowIn list row ∨ (f ≤ row ∧ row ≤ l)) : rowIn (addRange rows f l list) row := by
  obtain ⟨length, ranges, -⟩ := safe
  by_cases met : metBy f l list = []
  · by_cases room : list.length < 8
    · rw [addRange_of_none met room, rowIn_insertRange]
      exact h.symm
    · rw [addRange_of_full met (by omega)]
      obtain ⟨-, below, -⟩ := overflowFirst_spec f list (by omega)
      rcases h with ⟨r, hr, low, high⟩ | ⟨low, high⟩
      · by_cases early : r.first < overflowFirst f list
        · exact ⟨r, List.mem_append_left _ (List.mem_filter.mpr ⟨hr, decide_eq_true early⟩), low, high⟩
        · have last := (ranges r hr).2
          exact ⟨_, List.mem_append_right _ (List.mem_singleton_self _), by simp only []; omega, by simp only []; omega⟩
      · exact ⟨_, List.mem_append_right _ (List.mem_singleton_self _), by simp only []; omega, by simp only []; omega⟩
  · rw [addRange_of_met met, rowIn_insertRange]
    obtain ⟨-, -, lower, upper, each⟩ := hull_spec f l (metBy f l list)
    rcases h with ⟨r, hr, low, high⟩ | ⟨low, high⟩
    · cases meets : r.meets f l with
      | true =>
        have covers := each r (List.mem_filter.mpr ⟨hr, meets⟩)
        exact .inl (by omega)
      | false => exact .inr ⟨r, List.mem_filter.mpr ⟨hr, by simp [meets]⟩, low, high⟩
    · exact .inl (by omega)

/-- Unless the list overflows, R62 damages no other row. -/
theorem rowIn_of_add (room : list.length < 8 ∨ ∃ r ∈ list, r.first ≤ l + 1 ∧ f ≤ r.last + 1) {row : Nat}
    (h : rowIn (addRange rows f l list) row) : rowIn list row ∨ (f ≤ row ∧ row ≤ l) := by
  by_cases met : metBy f l list = []
  · have room : list.length < 8 := room.elim id fun ⟨r, hr, meets⟩ =>
      absurd (mem_metBy.mpr ⟨hr, meets⟩) (by simp [met])
    rw [addRange_of_none met room, rowIn_insertRange] at h
    exact h.symm
  · rw [addRange_of_met met, rowIn_insertRange] at h
    obtain ⟨first, last, lower, upper, -⟩ := hull_spec f l (metBy f l list)
    rcases h with ⟨low, high⟩ | ⟨r, hr, within⟩
    · by_cases before : row < f
      · obtain ⟨r, hr, same⟩ := first.resolve_left (by omega)
        obtain ⟨mem, -, touches⟩ := mem_metBy.mp hr
        exact .inl ⟨r, mem, by omega, by omega⟩
      · by_cases behind : l < row
        · obtain ⟨r, hr, same⟩ := last.resolve_left (by omega)
          obtain ⟨mem, touches, -⟩ := mem_metBy.mp hr
          exact .inl ⟨r, mem, by omega, by omega⟩
        · exact .inr (by omega)
    · exact .inl ⟨r, List.mem_of_mem_filter hr, within⟩

end

/-- Settles O37: the range goes to its place, or absorbs what it meets, or the list overflows into one last range. -/
theorem damageListsStayOrdered : Obligations.DamageListsStayOrdered := fun _ _ _ _ safe proper inside =>
  ⟨safe.add proper inside, fun _ h => safe.rowIn_add inside h, fun room _ h => rowIn_of_add room h⟩

end Sys2Proof.Machine
end

section
/-! SUPPORT. The slot table, the damage lists and the fronts under every elementary move (O8). -/

namespace Sys2Proof.Machine

/-! ### Records and lists of records -/

/-- Every record of the table, and none beyond it. -/
theorem Ring.split_at {r : Ring} {s : Nat} (h : s < r.slots.length) :
    ∃ before after, r.slots = before ++ r.slot s :: after ∧ before.length = s := by
  refine ⟨r.slots.take s, r.slots.drop (s + 1), ?_, by simp; omega⟩
  rw [Ring.slot_of_getElem? (List.getElem?_eq_getElem h), ← List.drop_eq_getElem_cons h, List.take_append_drop]

/-- What a change of one record leaves to RingSafe: its hold, and an EMPTY one bare. -/
def Slot.Kept (x y : Slot) : Prop :=
  y.held = x.held ∧ ((x.state = .empty → x = .vacant) → y.state = .empty → y = .vacant)

theorem Slot.Kept.refl (x : Slot) : x.Kept x := ⟨rfl, id⟩

theorem Slot.Same.kept {x y : Slot} (h : x.Same y) : x.Kept y := by
  obtain ⟨state, -, held, -, bare⟩ := h
  exact ⟨held, fun safe empty => bare (safe (state ▸ empty))⟩

/-- Damage is no record's hold or state, and an EMPTY record has no list to damage. -/
theorem Slot.kept_damage (x : Slot) (t : Nat) (f : List RowRange → List RowRange) :
    x.Kept { x with damage := x.damage.modify t f } := by
  refine ⟨rfl, fun safe empty => ?_⟩
  have bare := safe empty
  subst bare
  simp [Slot.vacant]

/-- A closed record is not EMPTY. -/
theorem Slot.kept_closed (x : Slot) (o : List TileOutcome) : x.Kept { x with state := .closed, outcomes := o } :=
  ⟨rfl, fun _ empty => nomatch empty⟩

/-- Damage of one tile of one slot, in any table. -/
theorem kept_modify_damage (l : List Slot) (s t : Nat) (f : List RowRange → List RowRange) :
    List.Forall₂ Slot.Kept l (l.modify s fun x => { x with damage := x.damage.modify t f }) :=
  List.forall₂_modify Slot.Kept.refl fun x _ => x.kept_damage t f

/-- A table of 32 records, the EMPTY ones bare, `n` of them held (R77, R78, R94). -/
def TableSafe (n : Nat) (l : List Slot) : Prop :=
  l.length = 32 ∧ (∀ x ∈ l, x.state = .empty → x = .vacant) ∧ n = l.countP (·.held)

theorem TableSafe.kept {n : Nat} {l m : List Slot} (safe : TableSafe n l) (kept : List.Forall₂ Slot.Kept l m) :
    TableSafe n m := by
  obtain ⟨length, bare, count⟩ := safe
  have held : m.countP (·.held) = l.countP (·.held) := by
    clear length bare count
    induction kept with
    | nil => rfl
    | cons head _ ih => simp only [List.countP_cons, head.1, ih]
  have still : ∀ y ∈ m, y.state = .empty → y = .vacant := by
    clear length count held
    induction kept with
    | nil => exact bare
    | cons head _ ih =>
      obtain ⟨first, rest⟩ := List.forall_mem_cons.mp bare
      exact List.forall_mem_cons.mpr ⟨head.2 first, ih rest⟩
  exact ⟨kept.length_eq ▸ length, still, held ▸ count⟩

/-! ### A list of damages -/

/-- What an entry of a tracking handle damages, if its binding is in force (R64). -/
def Dev.entryDamage (d : Dev) (p : Plan) (slots : List Slot) (h : HandleEntry) : List Slot :=
  if [CtxId.c0, .c1].any (fun i => (d.tracker.ctx i).any fun c => h.binding = some c.binding && c.slot = h.slot) then
    slots.modify h.slot fun x =>
      { x with damage := x.damage.modify h.tile (addRange (p.rows (p.tileAt h.tile)) h.first h.last) }
  else slots

theorem Dev.handleDamage_eq (d : Dev) (handle : List HandleEntry) : d.handleDamage handle =
    match d.plan.working with
    | none => d.ring.slots
    | some w => handle.foldl (d.entryDamage w.plan) d.ring.slots := rfl

/-- What each damage keeps, all damages of a handle keep. -/
theorem foldl_keeps {α β : Type} {P : β → Prop} {f : β → α → β} (l : List α) : ∀ {b : β},
    (∀ b, ∀ x ∈ l, P b → P (f b x)) → P b → P (l.foldl f b) := by
  induction l with
  | nil => exact fun _ h => h
  | cons x l ih =>
    intro b step h
    exact ih (fun b y hy => step b y (List.mem_cons_of_mem _ hy)) (step b x List.mem_cons_self h)

section
variable {d e : Dev}

/-! ### The slot table (section 5.1) -/

theorem Dev.ringSafe_iff (d : Dev) : d.RingSafe ↔ TableSafe d.ring.holdCount d.ring.slots ∧
    d.ring.holdCount ≤ (d.plan?.map (·.slots)).getD 0 - 3 ∧
    (d.ring.frameStartHigh = true ↔ d.ring.frameStartEnd.isSome = true) := by
  simp only [Dev.RingSafe, TableSafe, and_assoc]

/-- A change of the table, under the same plan. -/
theorem Dev.RingSafe.table {l : List Slot} (safe : d.RingSafe) (table : TableSafe d.ring.holdCount l) :
    Dev.RingSafe { d with ring := { d.ring with slots := l } } := by
  rw [Dev.ringSafe_iff] at safe ⊢
  exact ⟨table, safe.2⟩

theorem TableSafe.handleDamage {n : Nat} (safe : TableSafe n d.ring.slots) (handle : List HandleEntry) :
    TableSafe n (d.handleDamage handle) := by
  rw [Dev.handleDamage_eq]
  split
  · exact safe
  · refine foldl_keeps (P := TableSafe n) handle (fun l h _ tidy => ?_) safe
    unfold Dev.entryDamage
    split
    · exact tidy.kept (kept_modify_damage ..)
    · exact tidy

/-- The slot a capture takes is not held: it is EMPTY, or reusable (R82). -/
theorem Ring.choose_unheld {r : Ring} {k s : Nat} (bare : ∀ x ∈ r.slots, x.state = .empty → x = .vacant)
    (chosen : r.choose k = some s) : (r.slot s).held = false := by
  rcases r.choose_cases k with ⟨u, same, -, empty, -⟩ | ⟨-, ⟨u, l, m, same, reusable, -⟩ | ⟨none, -⟩⟩
  · obtain rfl : u = s := Option.some.inj (same.symm.trans chosen)
    by_cases inside : u < r.slots.length
    · have here := List.getElem?_eq_getElem inside
      rw [Ring.slot_of_getElem? here] at empty ⊢
      rw [bare _ (List.getElem_mem inside) empty]
      rfl
    · rw [Ring.slot, List.getD_eq_default _ _ (not_lt.mp inside)]
      rfl
  · obtain rfl : u = s := Option.some.inj (same.symm.trans chosen)
    exact ((Slot.reusable_iff _).mp reusable).2.1
  · rw [none] at chosen; cases chosen

/-- A record put in place of another. -/
theorem TableSafe.set {r : Ring} {n s : Nat} {x : Slot} (safe : TableSafe n r.slots) (inside : s < r.slots.length)
    (filled : x.state ≠ .empty) : TableSafe (n - (r.slot s).held.toNat + x.held.toNat) (r.slots.set s x) := by
  obtain ⟨length, bare, count⟩ := safe
  refine ⟨by simpa using length, fun y hy empty => ?_, ?_⟩
  · rcases List.mem_or_eq_of_mem_set hy with old | rfl
    · exact bare y old empty
    · exact absurd empty filled
  · obtain ⟨before, after, split, rfl⟩ := Ring.split_at inside
    rw [count, split, List.set_append_right _ _ le_rfl, Nat.sub_self, List.set_cons_zero]
    simp only [List.countP_append, List.countP_cons]
    cases (r.slot before.length).held <;> cases x.held <;> simp <;> omega

theorem Ring.modify_slots {r : Ring} {s : Nat} (f : Slot → Slot) (inside : s < r.slots.length) :
    r.slots.modify s f = r.slots.set s (f (r.slot s)) := by
  rw [List.modify_eq_set_getElem?, List.getElem?_eq_getElem inside,
    Ring.slot_of_getElem? (List.getElem?_eq_getElem inside)]
  rfl

/-- Only a slot of the table is held. -/
theorem Ring.lt_length_of_held {r : Ring} {s : Nat} (held : (r.slot s).held = true) : s < r.slots.length := by
  by_contra beyond
  rw [Ring.slot, List.getD_eq_default _ _ (not_lt.mp beyond)] at held
  cases held

/-- A held slot is not EMPTY. -/
theorem TableSafe.filled_of_held {r : Ring} {n s : Nat} (safe : TableSafe n r.slots) (held : (r.slot s).held = true) :
    (r.slot s).state ≠ .empty := by
  have here := List.getElem?_eq_getElem (Ring.lt_length_of_held held)
  rw [Ring.slot_of_getElem? here] at held ⊢
  intro empty
  rw [safe.2.1 _ (List.getElem_mem _) empty] at held
  cases held

/-- A table of which every record is EMPTY, or is kept. -/
theorem TableSafe.of_map {n : Nat} {l : List Slot} (safe : TableSafe n l) {f : Slot → Slot}
    (h : ∀ x, f x = .vacant ∨ f x = x) : TableSafe ((l.map f).countP (·.held)) (l.map f) := by
  refine ⟨by simpa using safe.1, fun y hy empty => ?_, rfl⟩
  obtain ⟨x, hx, rfl⟩ := List.mem_map.mp hy
  rcases h x with vacant | same
  · exact vacant
  · rw [same] at empty ⊢
    exact safe.2.1 x hx empty

theorem Dev.shutFrame_ring (i : CtxId) (c : Context) (d : Dev) : (d.shutFrame i c).ring = { d.ring with
    slots := d.ring.slots.modify c.slot fun x =>
      { x with state := .closed, outcomes := c.fronts.map (·.status.outcome) } } := by
  simp [Dev.shutFrame]

theorem Dev.stallTile_ring (p : Plan) (i : CtxId) (s t : Nat) (g : Front) (d : Dev) :
    (d.stallTile p i s t g).ring = (d.addDamage p s t g.row (p.rows (p.tileAt t) - 1)).ring := by
  simp [Dev.stallTile]

/-- A block with a table and holds of its own, and the same line and plan. -/
theorem Dev.RingSafe.of_table (safe : d.RingSafe) (plan : e.plan = d.plan) (table : TableSafe e.ring.holdCount e.ring.slots)
    (most : e.ring.holdCount ≤ (d.plan?.map (·.slots)).getD 0 - 3)
    (high : e.ring.frameStartHigh = d.ring.frameStartHigh ∧ e.ring.frameStartEnd = d.ring.frameStartEnd) :
    e.RingSafe := by
  rw [Dev.ringSafe_iff] at safe ⊢
  refine ⟨table, ?_, by rw [high.1, high.2]; exact safe.2.2⟩
  rwa [Dev.plan?, plan]

theorem Dev.Act.ringSafe (act : Dev.Act d e) (safe : d.RingSafe) : e.RingSafe := by
  obtain ⟨table, most, high⟩ := d.ringSafe_iff.mp safe
  cases act with
  | error r _ => exact safe.table (table.handleDamage r.handle)
  | slots l same => exact safe.table (table.kept (same.imp fun _ _ h => h.kept))
  | hold s filled unheld room =>
    have inside := Ring.lt_length_of_not_empty filled
    have held := table.set (x := { d.ring.slot s with held := true }) inside filled
    simp only [unheld, Bool.toNat_false, Bool.toNat_true, Nat.sub_zero] at held
    rw [← Ring.modify_slots (fun x => { x with held := true }) inside] at held
    exact safe.of_table rfl held room ⟨rfl, rfl⟩
  | release s held =>
    have inside := Ring.lt_length_of_held held
    have free := table.set (x := { d.ring.slot s with held := false }) inside (table.filled_of_held held)
    simp only [held, Bool.toNat_false, Bool.toNat_true, Nat.add_zero] at free
    rw [← Ring.modify_slots (fun x => { x with held := false }) inside] at free
    exact safe.of_table rfl free ((Nat.sub_le _ _).trans most) ⟨rfl, rfl⟩
  | releaseEvery =>
    refine safe.of_table rfl ⟨by simpa [Dev.releaseEvery] using table.1, fun x hx empty => ?_, ?_⟩ (Nat.zero_le _)
      ⟨rfl, rfl⟩
    · obtain ⟨y, hy, rfl⟩ := List.mem_map.mp hx
      rw [table.2.1 y hy empty]
      rfl
    · simp [Dev.releaseEvery, List.countP_map, Function.comp_def]
  | lines r slots _ holds line =>
    rw [Dev.ringSafe_iff]
    refine ⟨by rw [slots, holds]; exact table, by rw [holds]; exact most, ?_⟩
    rcases line with new | ⟨same, same'⟩
    · exact new
    · simp only [same, same']; exact high
  | allocate p s phase base start hp _ chosen =>
    have unheld := Ring.choose_unheld table.2.1 chosen
    rw [Dev.ringSafe_iff]
    simp only [Dev.bindCtx_frame, Ring.allocate, Dev.plan?, Option.isSome_some, and_true]
    refine ⟨?_, most⟩
    by_cases inside : s < d.ring.slots.length
    · simpa [unheld, Slot.allocated] using
        table.set (x := Slot.allocated p (d.ring.frameFor s) phase base) inside (by simp [Slot.allocated])
    · rw [List.set_eq_of_length_le (not_lt.mp inside)]; exact table
  | damage p s t f l _ _ _ => exact safe.table (table.kept (kept_modify_damage ..))
  | stall p i c t g _ _ _ _ =>
    refine safe.of_table (by simp) ?_ ?_ ?_
    · rw [Dev.stallTile_ring]; exact table.kept (kept_modify_damage ..)
    · rw [Dev.stallTile_ring]; exact most
    · rw [Dev.stallTile_ring]; exact ⟨rfl, rfl⟩
  | front p i c t g f _ _ _ _ => simpa [Dev.RingSafe, Dev.plan?] using safe
  | shut i c bound =>
    have closed := d.shutFrame_ring i c
    refine safe.of_table (by simp) ?_ ?_ ?_
    · rw [closed]; exact table.kept (List.forall₂_modify Slot.Kept.refl fun x _ => x.kept_closed _)
    · rw [closed]; exact most
    · rw [closed]; exact ⟨rfl, rfl⟩
  | vacate _ =>
    have cleared := table.of_map (f := fun x => if x.held then x else .vacant) fun x => by split <;> simp
    have count : (d.ring.slots.map fun x => if x.held then x else Slot.vacant).countP (·.held) = d.ring.holdCount := by
      rw [table.2.2, List.countP_map]
      refine List.countP_congr fun x _ => ?_
      simp only [Function.comp_apply]
      split
      · rfl
      · next free => simp [Slot.vacant, free]
    rw [count] at cleared
    exact safe.of_table rfl cleared most ⟨rfl, rfl⟩
  | apply w _ =>
    have bare := table.of_map (f := fun _ => Slot.vacant) fun x => .inl rfl
    have none : (d.ring.slots.map fun _ => Slot.vacant).countP (·.held) = 0 := by
      simp [List.countP_eq_zero, Slot.vacant]
    rw [none] at bare
    rw [Dev.ringSafe_iff]
    exact ⟨bare, Nat.zero_le _, high⟩
  | reset straps => simp [Dev.RingSafe, Dev.release, Dev.released, Slot.vacant]
  | _ => simpa [Dev.RingSafe, Dev.plan?] using safe

end

end Sys2Proof.Machine
end

section
/-! SUPPORT. Damage lists, fronts and tracking handles under every elementary move (O8). -/

namespace Sys2Proof.Machine

/-! ### What TrackSafe says, part by part -/

/-- Every damage list of a slot table is one of R61's. -/
def DamageSafe (p : Plan) (slots : List Slot) : Prop :=
  ∀ x ∈ slots, ∀ t, RangesSafe (p.rows (p.tileAt t)) (x.damage.getD t [])

/-- A context has one front, within its bounds, for each tile. -/
def FrontsSafe (p : Plan) (c : Context) : Prop :=
  c.fronts.length = p.tiles.length ∧
  ∀ t g, c.fronts[t]? = some g → FrontSafe (p.rows (p.tileAt t)) (p.rowLen (p.tileAt t)) g

/-- The handle entries of a binding name rows of their tiles. -/
def HandlesSafe (p : Plan) (records : List InFlight) (binding : Nat) : Prop :=
  ∀ r ∈ records, ∀ h ∈ r.handle, h.binding = some binding → h.first ≤ h.last ∧ h.last < p.rows (p.tileAt h.tile)

theorem Dev.trackSafe_iff (d : Dev) : d.TrackSafe ↔
    (∀ w, d.plan.pending = some w → w.plan.TilesFilled) ∧
    (∀ i c, d.tracker.ctx i = some c → c.binding < d.tracker.nextBinding) ∧
    (∀ r ∈ d.mem.inflight, ∀ h ∈ r.handle, ∀ b, h.binding = some b → b < d.tracker.nextBinding) ∧
    ∀ w, d.plan.working = some w → w.plan.TilesFilled ∧ DamageSafe w.plan d.ring.slots ∧
      ∀ i c, d.tracker.ctx i = some c → FrontsSafe w.plan c ∧ HandlesSafe w.plan d.mem.inflight c.binding := by
  simp only [Dev.TrackSafe, DamageSafe, FrontsSafe, HandlesSafe, and_assoc]

section
variable {d e : Dev} {p : Plan}

/-! ### Damage lists -/

theorem DamageSafe.of_forall₂ {l m : List Slot} (safe : DamageSafe p l) (h : List.Forall₂ (fun x y : Slot => ∀ t,
    RangesSafe (p.rows (p.tileAt t)) (x.damage.getD t []) → RangesSafe (p.rows (p.tileAt t)) (y.damage.getD t [])) l m) :
    DamageSafe p m := by
  induction h with
  | nil => exact safe
  | cons head _ ih =>
    obtain ⟨first, rest⟩ := List.forall_mem_cons.mp safe
    exact List.forall_mem_cons.mpr ⟨fun t => head t (first t), ih rest⟩

/-- Records changed in other things than damage. -/
theorem DamageSafe.modify {l : List Slot} (safe : DamageSafe p l) (s : Nat) {f : Slot → Slot}
    (h : ∀ x, (f x).damage = x.damage) : DamageSafe p (l.modify s f) :=
  safe.of_forall₂ (List.forall₂_modify (fun _ _ => id) fun x _ t ranges => by rw [h x]; exact ranges)

/-- A range of a tile's rows added to one list (R62). -/
theorem DamageSafe.add {l : List Slot} (safe : DamageSafe p l) (s : Nat) {t first last : Nat} (proper : first ≤ last)
    (inside : last < p.rows (p.tileAt t)) : DamageSafe p (l.modify s fun x =>
      { x with damage := x.damage.modify t (addRange (p.rows (p.tileAt t)) first last) }) := by
  refine safe.of_forall₂ (List.forall₂_modify (fun _ _ => id) fun x _ u ranges => ?_)
  simp only [List.getD_eq_getElem?_getD, List.getElem?_modify] at ranges ⊢
  cases here : x.damage[u]? with
  | none => simpa [here] using ranges
  | some list =>
    rw [here] at ranges
    by_cases same : t = u
    · subst same
      simpa using ranges.add proper inside
    · simpa [same] using ranges

theorem RangesSafe.nil (rows : Nat) : RangesSafe rows [] := by simp [RangesSafe]

theorem DamageSafe.vacant (p : Plan) (t : Nat) : RangesSafe (p.rows (p.tileAt t)) (Slot.vacant.damage.getD t []) := by
  simpa [Slot.vacant] using RangesSafe.nil _

/-- Records that are kept or EMPTY. -/
theorem DamageSafe.map {l : List Slot} (safe : DamageSafe p l) {f : Slot → Slot}
    (h : ∀ x, f x = .vacant ∨ (f x).damage = x.damage) : DamageSafe p (l.map f) := by
  intro y hy t
  obtain ⟨x, hx, rfl⟩ := List.mem_map.mp hy
  rcases h x with vacant | same
  · rw [vacant]; exact DamageSafe.vacant p t
  · rw [same]; exact safe x hx t

theorem DamageSafe.set {l : List Slot} (safe : DamageSafe p l) (s : Nat) {x : Slot}
    (h : ∀ t, RangesSafe (p.rows (p.tileAt t)) (x.damage.getD t [])) : DamageSafe p (l.set s x) := by
  intro y hy
  rcases List.mem_or_eq_of_mem_set hy with old | rfl
  · exact safe y old
  · exact h

/-! ### Contexts -/

theorem Dev.updFront_ctx (i j : CtxId) (t : Nat) (f : Front → Front) (d : Dev) :
    (d.updFront i t f).tracker.ctx j = (d.tracker.ctx j).map fun c =>
      if j = i then { c with fronts := c.fronts.modify t f } else c := by
  cases i <;> cases j <;> simp [Dev.updFront, Dev.updCtx, Tracker.ctx]

theorem Dev.updFront_nextBinding (i : CtxId) (t : Nat) (f : Front → Front) (d : Dev) :
    (d.updFront i t f).tracker.nextBinding = d.tracker.nextBinding := by cases i <;> rfl

/-- One front changed and kept within its tile. -/
theorem FrontsSafe.modify {c : Context} (safe : FrontsSafe p c) {t : Nat} {g : Front} {f : Front → Front}
    (front : c.fronts[t]? = some g) (h : FrontSafe (p.rows (p.tileAt t)) (p.rowLen (p.tileAt t)) g →
      FrontSafe (p.rows (p.tileAt t)) (p.rowLen (p.tileAt t)) (f g)) :
    FrontsSafe p { c with fronts := c.fronts.modify t f } := by
  obtain ⟨length, fronts⟩ := safe
  refine ⟨by simpa using length, fun u y hy => ?_⟩
  simp only [List.getElem?_modify] at hy
  by_cases same : t = u
  · subst same
    obtain rfl : f g = y := by simpa [front] using hy
    exact h (fronts t g front)
  · exact fronts u y (by simpa [same] using hy)

/-! ### Tracking handles -/

/-- What an entry of a write's handle says: the binding in force on its slot, and rows of its tile (R46). -/
def Dev.EntrySafe (d : Dev) (p : Plan) (h : HandleEntry) : Prop :=
  h.binding = d.bindingOf h.slot ∧ h.first ≤ h.last ∧ h.last < p.rows (p.tileAt h.tile)

theorem addHandle_safe {q : Piece} (inside : q.row < p.rows (p.tileAt q.tile)) {hs : List HandleEntry}
    (safe : ∀ h ∈ hs, d.EntrySafe p h) : ∀ h ∈ addHandle (d.bindingOf q.slot) q hs, d.EntrySafe p h := by
  induction hs with
  | nil =>
    intro h hh
    obtain rfl := List.mem_singleton.mp hh
    exact ⟨rfl, le_rfl, inside⟩
  | cons x hs ih =>
    obtain ⟨first, rest⟩ := List.forall_mem_cons.mp safe
    unfold addHandle
    split
    · next same =>
      obtain ⟨binding, proper, last⟩ := first
      refine List.forall_mem_cons.mpr ⟨⟨binding, ?_, ?_⟩, rest⟩
      · simp only []; omega
      · simp only [same.2] at last ⊢; omega
    · exact List.forall_mem_cons.mpr ⟨first, ih rest⟩

theorem Dev.writeHandle_safe (hp : d.plan? = some p) (a n : Nat) : ∀ h ∈ d.writeHandle a n, d.EntrySafe p h := by
  simp only [Dev.writeHandle, hp]
  exact foldl_keeps (P := fun hs => ∀ h ∈ hs, d.EntrySafe p h) _
    (fun hs q hq safe => addHandle_safe (p.trackerPieces_hold n a q hq).1 safe) (by simp)

/-- The binding in force on a slot is that of a bound context. -/
theorem Dev.bindingOf_spec {s b : Nat} (h : d.bindingOf s = some b) : ∃ i c, d.tracker.ctx i = some c ∧ c.binding = b := by
  unfold Dev.bindingOf at h
  split at h
  · obtain ⟨c, found, same⟩ := Option.map_eq_some_iff.mp h
    obtain ⟨i, -, bound⟩ := Option.bind_eq_some_iff.mp found
    exact ⟨i, c, bound, same⟩
  · cases h

/-! ### The elementary moves -/

/-- A block under the same plan, with no new record, context or binding. -/
theorem Dev.TrackSafe.of_ctx (safe : d.TrackSafe) (plan : e.plan = d.plan)
    (next : e.tracker.nextBinding = d.tracker.nextBinding) (records : e.mem.inflight ⊆ d.mem.inflight)
    (slots : ∀ w, d.plan.working = some w → DamageSafe w.plan d.ring.slots → DamageSafe w.plan e.ring.slots)
    (ctx : ∀ i x, e.tracker.ctx i = some x → ∃ c, d.tracker.ctx i = some c ∧ x.binding = c.binding ∧
      ∀ w, d.plan.working = some w → FrontsSafe w.plan c → FrontsSafe w.plan x) : e.TrackSafe := by
  rw [Dev.trackSafe_iff] at safe ⊢
  obtain ⟨pending, bindings, handles, working⟩ := safe
  rw [plan, next]
  refine ⟨pending, fun i x hx => ?_, fun r hr => handles r (records hr), fun w hw => ?_⟩
  · obtain ⟨c, bound, same, -⟩ := ctx i x hx
    exact same ▸ bindings i c bound
  · obtain ⟨filled, damage, contexts⟩ := working w hw
    refine ⟨filled, slots w hw damage, fun i x hx => ?_⟩
    obtain ⟨c, bound, same, fronts⟩ := ctx i x hx
    obtain ⟨frontsSafe, rows⟩ := contexts i c bound
    exact ⟨fronts w hw frontsSafe, fun r hr h hh binding => rows r (records hr) h hh (same ▸ binding)⟩

/-- A block with the same plan, contexts and records. -/
theorem Dev.TrackSafe.of_slots (safe : d.TrackSafe) (plan : e.plan = d.plan) (tracker : e.tracker = d.tracker)
    (mem : e.mem = d.mem)
    (slots : ∀ w, d.plan.working = some w → DamageSafe w.plan d.ring.slots → DamageSafe w.plan e.ring.slots) :
    e.TrackSafe :=
  safe.of_ctx plan (by rw [tracker]) (by rw [mem]; exact fun _ => id) slots fun i x hx =>
    ⟨x, tracker ▸ hx, rfl, fun _ _ => id⟩

theorem DamageSafe.handleDamage {w : WorkingPlan} {handle : List HandleEntry} (hw : d.plan.working = some w)
    (safe : DamageSafe w.plan d.ring.slots)
    (rows : ∀ i c, d.tracker.ctx i = some c → ∀ h ∈ handle, h.binding = some c.binding →
      h.first ≤ h.last ∧ h.last < w.plan.rows (w.plan.tileAt h.tile)) : DamageSafe w.plan (d.handleDamage handle) := by
  simp only [Dev.handleDamage_eq, hw]
  refine foldl_keeps (P := DamageSafe w.plan) handle (fun l h hh damage => ?_) safe
  unfold Dev.entryDamage
  split
  · next inForce =>
    obtain ⟨i, -, bound⟩ := List.any_eq_true.mp inForce
    obtain ⟨c, hc, same⟩ := Option.any_eq_true _ _ |>.mp bound
    have binding : h.binding = some c.binding := of_decide_eq_true (Bool.and_eq_true_iff.mp same).1
    obtain ⟨proper, inside⟩ := rows i c hc h hh binding
    exact damage.add _ proper inside
  · exact damage

theorem Dev.TrackSafe.issue {owner : Owner} {op : BusOp} {handle : List HandleEntry} (safe : d.TrackSafe)
    (given : handle = [] ∨ ∃ a n, handle = d.writeHandle a n) : (d.issue owner op handle).TrackSafe := by
  rw [Dev.trackSafe_iff] at safe ⊢
  obtain ⟨pending, bindings, handles, working⟩ := safe
  have entry (h : HandleEntry) (hh : h ∈ handle) (b : Nat) (hb : h.binding = some b) :
      (∃ i c, d.tracker.ctx i = some c ∧ c.binding = b) ∧
        ∀ w, d.plan.working = some w → h.first ≤ h.last ∧ h.last < w.plan.rows (w.plan.tileAt h.tile) := by
    rcases given with rfl | ⟨a, n, rfl⟩
    · cases hh
    · cases hw : d.plan.working with
      | none => simp [Dev.writeHandle, Dev.plan?, hw] at hh
      | some w =>
        have safe : d.EntrySafe w.plan h := Dev.writeHandle_safe (by simp [Dev.plan?, hw]) a n h hh
        obtain ⟨binding, rows⟩ := safe
        refine ⟨Dev.bindingOf_spec (binding ▸ hb), fun v hv => ?_⟩
        obtain rfl := Option.some.inj hv
        exact rows
  have split (r : InFlight) (hr : r ∈ (d.issue owner op handle).mem.inflight) :
      r ∈ d.mem.inflight ∨ r.handle = handle := by
    rcases List.mem_append.mp hr with old | new
    · exact .inl old
    · obtain rfl := List.mem_singleton.mp new
      exact .inr rfl
  refine ⟨pending, bindings, fun r hr h hh b hb => ?_, fun w hw => ?_⟩
  · rcases split r hr with old | new
    · exact handles r old h hh b hb
    · obtain ⟨i, c, bound, rfl⟩ := (entry h (new ▸ hh) b hb).1
      exact bindings i c bound
  · obtain ⟨filled, damage, contexts⟩ := working w hw
    refine ⟨filled, damage, fun i c bound => ⟨(contexts i c bound).1, fun r hr h hh binding => ?_⟩⟩
    rcases split r hr with old | new
    · exact (contexts i c bound).2 r old h hh binding
    · exact (entry h (new ▸ hh) _ binding).2 w hw

/-- The context that a capture binds (R53). -/
def Plan.context (p : Plan) (binding s : Nat) (start : HeadTime) : Context :=
  { binding := binding, slot := s, frameStart := start, fronts := List.replicate p.tiles.length .start }

/-- A capture binds one context, with the next binding, or finds none free (R53). -/
theorem Dev.bindCtx_cases (p : Plan) (s : Nat) (start : HeadTime) (d : Dev) :
    (d.tracker.ctx0 ≠ none ∧ d.tracker.ctx1 ≠ none ∧ d.bindCtx p s start = d) ∨
    ∃ i, d.tracker.ctx i = none ∧ (d.bindCtx p s start).tracker.order = d.tracker.order ++ [i] ∧
      (d.bindCtx p s start).tracker.nextBinding = d.tracker.nextBinding + 1 ∧
      ∀ j, (d.bindCtx p s start).tracker.ctx j =
        if j = i then some (p.context d.tracker.nextBinding s start) else d.tracker.ctx j := by
  unfold Dev.bindCtx
  dsimp only
  split
  · next free => exact .inr ⟨.c0, free, rfl, rfl, fun j => by cases j <;> rfl⟩
  · next free => exact .inr ⟨.c1, free, rfl, rfl, fun j => by cases j <;> rfl⟩
  · next bound0 bound1 => exact .inl ⟨by simp [bound0], by simp [bound1], rfl⟩

theorem FrontsSafe.context (filled : p.TilesFilled) (binding s : Nat) (start : HeadTime) :
    FrontsSafe p (p.context binding s start) := by
  refine ⟨by simp [Plan.context], fun t g front => ?_⟩
  simp only [Plan.context, List.getElem?_replicate] at front
  split at front
  · next inside =>
    obtain rfl := Option.some.inj front
    exact filled t inside
  · cases front

theorem Dev.TrackSafe.bindCtx {s : Nat} {start : HeadTime} (safe : d.TrackSafe) (hp : d.plan? = some p) :
    (d.bindCtx p s start).TrackSafe := by
  rcases d.bindCtx_cases p s start with ⟨-, -, same⟩ | ⟨i, -, -, next, ctx⟩
  · rw [same]; exact safe
  · rw [Dev.trackSafe_iff] at safe ⊢
    obtain ⟨pending, bindings, handles, working⟩ := safe
    simp only [Dev.bindCtx_frame, next]
    refine ⟨pending, fun j c hc => ?_, fun r hr h hh b hb => Nat.lt_succ_of_lt (handles r hr h hh b hb), fun w hw => ?_⟩
    · rw [ctx] at hc
      split at hc
      · obtain rfl := Option.some.inj hc
        exact Nat.lt_succ_self _
      · exact Nat.lt_succ_of_lt (bindings j c hc)
    · obtain ⟨filled, damage, contexts⟩ := working w hw
      refine ⟨filled, damage, fun j c hc => ?_⟩
      rw [ctx] at hc
      split at hc
      · obtain rfl := Option.some.inj hc
        obtain rfl : w.plan = p := by simpa [Dev.plan?, hw] using hp
        refine ⟨FrontsSafe.context filled .., fun r hr h hh binding => ?_⟩
        exact absurd (handles r hr h hh _ binding) (lt_irrefl _)
      · exact contexts j c hc

theorem Dev.TrackSafe.updFront {i : CtxId} {c : Context} {t : Nat} {g : Front} {f : Front → Front} (safe : d.TrackSafe)
    (hp : d.plan? = some p) (bound : d.tracker.ctx i = some c) (front : c.fronts[t]? = some g)
    (moved : FrontSafe (p.rows (p.tileAt t)) (p.rowLen (p.tileAt t)) g →
      FrontSafe (p.rows (p.tileAt t)) (p.rowLen (p.tileAt t)) (f g)) : (d.updFront i t f).TrackSafe := by
  refine safe.of_ctx (by simp) (d.updFront_nextBinding i t f) (by simp) (by simp) fun j x hx => ?_
  rw [Dev.updFront_ctx] at hx
  obtain ⟨y, hy, rfl⟩ := Option.map_eq_some_iff.mp hx
  refine ⟨y, hy, by split <;> rfl, fun w hw fronts => ?_⟩
  split
  · next same =>
    subst same
    obtain rfl : y = c := Option.some.inj (hy.symm.trans bound)
    obtain rfl : w.plan = p := by simpa [Dev.plan?, hw] using hp
    exact fronts.modify front moved
  · exact fronts

theorem Dev.TrackSafe.addDamage {s t first last : Nat} (safe : d.TrackSafe) (hp : d.plan? = some p)
    (proper : first ≤ last) (inside : last < p.rows (p.tileAt t)) : (d.addDamage p s t first last).TrackSafe := by
  refine safe.of_slots rfl rfl rfl fun w hw damage => ?_
  obtain rfl : w.plan = p := by simpa [Dev.plan?, hw] using hp
  exact damage.add s proper inside

/-- A RUNNING tile stalls with the rows from its front on damaged (R68). -/
theorem Dev.TrackSafe.stallTile {i : CtxId} {c : Context} {t : Nat} {g : Front} (safe : d.TrackSafe)
    (hp : d.plan? = some p) (bound : d.tracker.ctx i = some c) (front : c.fronts[t]? = some g)
    (running : g.status = .running) : (d.stallTile p i c.slot t g).TrackSafe := by
  obtain ⟨w, hw, rfl⟩ := Option.map_eq_some_iff.mp hp
  obtain ⟨-, -, -, working⟩ := d.trackSafe_iff.mp safe
  have within := (((working w hw).2.2 i c bound).1.2 t g front)
  simp only [FrontSafe, running] at within
  have damaged := safe.addDamage (s := c.slot) (t := t) (first := g.row)
    (last := w.plan.rows (w.plan.tileAt t) - 1) hp (by omega) (by omega)
  refine damaged.updFront (by simpa [Dev.plan?] using hp) (by simpa using bound) front fun _ => ?_
  simpa only [FrontSafe] using within

theorem Dev.shutFrame_ctx (i j : CtxId) (c : Context) (d : Dev) :
    (d.shutFrame i c).tracker.ctx j = if j = i then none else d.tracker.ctx j := by
  cases i <;> cases j <;> rfl

theorem Dev.shutFrame_nextBinding (i : CtxId) (c : Context) (d : Dev) :
    (d.shutFrame i c).tracker.nextBinding = d.tracker.nextBinding := by cases i <;> rfl

/-- A plan goes to work, with no context bound and every slot EMPTY (R27, R73, R99). -/
theorem Dev.TrackSafe.apply {w : PendingPlan} (safe : d.TrackSafe) (filled : w.plan.TilesFilled) : Dev.TrackSafe { d with
    plan := { d.plan with working := some { plan := w.plan, seq := w.seq }, pending := none }
    tracker := { d.tracker with ctx0 := none, ctx1 := none, order := [] }
    ring := d.ring.cleared } := by
  rw [Dev.trackSafe_iff] at safe ⊢
  obtain ⟨-, -, handles, -⟩ := safe
  have free (i : CtxId) (c : Context) : Tracker.ctx { d.tracker with ctx0 := none, ctx1 := none, order := [] } i ≠ some c := by
    cases i <;> exact nofun
  refine ⟨fun _ waits => (nomatch waits), fun i c bound => absurd bound (free i c), handles, fun v hv => ?_⟩
  obtain rfl := Option.some.inj hv
  refine ⟨filled, fun x hx t => ?_, fun i c bound => absurd bound (free i c)⟩
  obtain ⟨-, -, rfl⟩ := List.mem_map.mp hx
  exact DamageSafe.vacant _ t

theorem Dev.Act.trackSafe (act : Dev.Act d e) (safe : d.TrackSafe) : e.TrackSafe := by
  have parts := d.trackSafe_iff.mp safe
  obtain ⟨pending, bindings, handles, working⟩ := parts
  cases act with
  | path m records _ _ =>
    exact safe.of_ctx rfl rfl records.subset (fun _ _ => id) fun i x hx => ⟨x, hx, rfl, fun _ _ => id⟩
  | issue owner op handle _ given => exact safe.issue given
  | error r hr =>
    refine safe.of_slots rfl rfl rfl fun w hw damage => damage.handleDamage hw fun i c hc h hh binding => ?_
    exact ((working w hw).2.2 i c hc).2 r hr h hh binding
  | slots l same =>
    refine safe.of_slots rfl rfl rfl fun w hw damage => damage.of_forall₂ (same.imp fun x y h t ranges => ?_)
    rw [h.2.2.2.1]
    exact ranges
  | hold s _ _ _ => exact safe.of_slots rfl rfl rfl fun w _ damage => damage.modify s fun _ => rfl
  | release s _ => exact safe.of_slots rfl rfl rfl fun w _ damage => damage.modify s fun _ => rfl
  | releaseEvery => exact safe.of_slots rfl rfl rfl fun w _ damage => damage.map fun _ => .inr rfl
  | lines r slots _ _ _ =>
    exact safe.of_slots rfl rfl rfl fun w _ damage => by rw [slots]; exact damage
  | allocate p s phase base start hp _ _ =>
    have filled : Dev.TrackSafe { d with ring := d.ring.allocate p s phase base d.timing.now } :=
      safe.of_slots rfl rfl rfl fun w _ damage => damage.set s fun t => by
        rw [List.getD_eq_getElem?_getD, Slot.allocated, List.getElem?_replicate]
        split <;> exact RangesSafe.nil _
    exact filled.bindCtx hp
  | damage p s t f l hp proper inside => exact safe.addDamage hp proper inside
  | stall p i c t g hp bound front running => exact safe.stallTile hp bound front running
  | front p i c t g f hp bound front moved => exact safe.updFront hp bound front moved
  | shut i c bound =>
    refine safe.of_ctx (by simp) (Dev.shutFrame_nextBinding ..) (by simp) (fun w _ damage => ?_) fun j x hx => ?_
    · rw [Dev.shutFrame_ring]; exact damage.modify c.slot fun _ => rfl
    · rw [Dev.shutFrame_ctx] at hx
      split at hx
      · cases hx
      · exact ⟨x, hx, rfl, fun _ _ => id⟩
  | vacate _ => exact safe.of_slots rfl rfl rfl fun w _ damage => damage.map fun x => by split <;> simp
  | apply w allowed => exact safe.apply (allowed.elim (pending w) Plan.Validated.tilesFilled)
  | pend w valid =>
    rw [Dev.trackSafe_iff]
    refine ⟨fun v hv => ?_, bindings, handles, working⟩
    obtain rfl := Option.some.inj hv
    exact valid.tilesFilled
  | reset straps =>
    have free (i : CtxId) (c : Context) : (d.release straps).tracker.ctx i ≠ some c := by
      cases i <;> simp [Dev.release, Dev.released, Tracker.ctx]
    rw [Dev.trackSafe_iff]
    exact ⟨by simp [Dev.release, Dev.released], fun i c bound => absurd bound (free i c),
      by simp [Dev.release, Dev.released], by simp [Dev.release, Dev.released]⟩
  | _ => simpa [Dev.TrackSafe] using safe

end

/-- Settles O8: the elementary moves keep the table and the damage; a stall and a piece keep the fronts, and a handle is made
of pieces that lie in their tiles. -/
theorem ringStaysSafe : Obligations.RingStaysSafe :=
  ⟨fun _ _ safe h => step_keeps (fun _ _ => id) (fun _ _ act => act.ringSafe) safe h,
    fun _ _ safe h => step_keeps (fun _ _ => id) (fun _ _ act => act.trackSafe) safe h⟩

end Sys2Proof.Machine
end

section
/-! SUPPORT. Frame numbers, the age order and the bindings under every elementary move (O9). -/

namespace Sys2Proof.Machine

/-! ### Bindings as functions of slots and contexts -/

/-- What BindingSafe says, of a slot table seen as functions of the slot, and contexts seen by the slots they are bound to
(R53, R79, R80). -/
def BindingOk (state : Nat → SlotState) (frame : Nat → FrameNo) (age : List Nat) (slotOf : CtxId → Option Nat)
    (order : List CtxId) (unplanned : Prop) : Prop :=
  (∀ s u, s ≠ u → state s ≠ .empty → state u ≠ .empty → frame s ≠ frame u) ∧
  age.Nodup ∧ (∀ s, s ∈ age ↔ state s ≠ .empty) ∧
  (∀ i s, slotOf i = some s → state s = .filling) ∧
  (∀ s, state s = .filling → ∃ i, slotOf i = some s) ∧
  (∀ i j s, slotOf i = some s → slotOf j = some s → i = j) ∧
  order.Nodup ∧ (∀ i, i ∈ order ↔ slotOf i ≠ none) ∧
  (unplanned → ∀ i, slotOf i = none)

/-- The slot a context is bound to. -/
def Tracker.slotOf (t : Tracker) (i : CtxId) : Option Nat := (t.ctx i).map (·.slot)

theorem Tracker.slotOf_eq_some_iff (t : Tracker) (i : CtxId) (s : Nat) :
    t.slotOf i = some s ↔ ∃ c, t.ctx i = some c ∧ c.slot = s := Option.map_eq_some_iff

theorem Dev.bindingSafe_iff (d : Dev) : d.BindingSafe ↔ BindingOk (fun s => (d.ring.slot s).state)
    (fun s => (d.ring.slot s).frame) d.ring.age d.tracker.slotOf d.tracker.order (d.plan.working = none) := by
  have all (P : CtxId → Prop) : (∀ i, P i) ↔ P .c0 ∧ P .c1 :=
    ⟨fun h => ⟨h .c0, h .c1⟩, fun h i => by cases i; exacts [h.1, h.2]⟩
  simp only [Dev.BindingSafe, BindingOk, Tracker.slotOf_eq_some_iff]
  refine and_congr_right' <| and_congr_right' <| and_congr_right' <| and_congr ?_ <| and_congr ?_ <| and_congr ?_ <|
    and_congr_right' <| and_congr ?_ ?_
  · exact ⟨fun h i s ⟨c, bound, same⟩ => same ▸ h i c bound, fun h i c bound => h i c.slot ⟨c, bound, rfl⟩⟩
  · exact Iff.rfl
  · exact ⟨fun h i j s ⟨c, hc, c_at⟩ ⟨e, he, e_at⟩ => h i j c e hc he (c_at.trans e_at.symm),
      fun h i j c e hc he same => h i j c.slot ⟨c, hc, rfl⟩ ⟨e, he, same.symm⟩⟩
  · simp only [Tracker.slotOf, ne_eq, Option.map_eq_none_iff, Option.isSome_iff_ne_none]
  · simp only [Tracker.slotOf, Option.map_eq_none_iff, all, Tracker.ctx]

section
variable {state : Nat → SlotState} {frame : Nat → FrameNo} {age : List Nat} {slotOf : CtxId → Option Nat}
  {order : List CtxId} {unplanned : Prop}

/-- A free context is bound to a slot that was not FILLING, under a number no other slot carries. -/
theorem BindingOk.allocate {s : Nat} {i : CtxId} {f : FrameNo} (ok : BindingOk state frame age slotOf order unplanned)
    (idle : state s ≠ .filling) (free : slotOf i = none) (fresh : ∀ u, u ≠ s → state u ≠ .empty → frame u ≠ f)
    (planned : ¬ unplanned) :
    BindingOk (fun u => if u = s then .filling else state u) (fun u => if u = s then f else frame u)
      (age.filter (· ≠ s) ++ [s]) (fun j => if j = i then some s else slotOf j) (order ++ [i]) unplanned := by
  obtain ⟨frames, ageOnce, ageAll, bound, owner, one, orderOnce, orderAll, -⟩ := ok
  refine ⟨fun a b ne ha hb => ?_, ?_, fun u => ?_, fun j u h => ?_, fun u h => ?_, fun j k u hj hk => ?_, ?_, fun j => ?_,
    fun h => absurd h planned⟩
  · dsimp only at ha hb ⊢
    split at ha <;> split at hb
    · omega
    · simp only [*, if_true, if_false]; exact (fresh b ‹_› hb).symm
    · simp only [*, if_true, if_false]; exact fresh a ‹_› ha
    · simp only [*, if_false]; exact frames a b ne ha hb
  · refine (ageOnce.filter _).append (List.nodup_singleton s) fun u old new => ?_
    simpa [List.mem_singleton.mp new] using List.mem_filter.mp old
  · by_cases same : u = s
    · simp [same]
    · simp [same, ageAll]
  · dsimp only at h ⊢
    split at h
    · simp [Option.some.inj h.symm]
    · have filling := bound j u h
      split
      · rfl
      · exact filling
  · by_cases same : u = s
    · exact ⟨i, by simp [same]⟩
    · obtain ⟨j, hj⟩ := owner u (by simpa [same] using h)
      refine ⟨j, ?_⟩
      have other : j ≠ i := by rintro rfl; rw [free] at hj; cases hj
      simpa [other] using hj
  · have never (k : CtxId) : slotOf k ≠ some s := fun h => idle (bound k s h)
    dsimp only at hj hk
    split at hj <;> split at hk
    · simp only [*]
    · obtain rfl := Option.some.inj hj; exact absurd hk (never k)
    · obtain rfl := Option.some.inj hk; exact absurd hj (never j)
    · exact one j k u hj hk
  · refine orderOnce.append (List.nodup_singleton i) fun j old new => ?_
    obtain rfl := List.mem_singleton.mp new
    exact (orderAll j).mp old free
  · by_cases same : j = i
    · simp [same]
    · simp [same, orderAll]

/-- The frame of a bound context closes. -/
theorem BindingOk.shut {s : Nat} {i : CtxId} (ok : BindingOk state frame age slotOf order unplanned)
    (at_ : slotOf i = some s) :
    BindingOk (fun u => if u = s then .closed else state u) frame age (fun j => if j = i then none else slotOf j)
      (order.filter (· ≠ i)) unplanned := by
  obtain ⟨frames, ageOnce, ageAll, bound, owner, one, orderOnce, orderAll, free⟩ := ok
  have filled (u : Nat) : (if u = s then .closed else state u) ≠ SlotState.empty ↔ state u ≠ .empty := by
    by_cases same : u = s
    · simp [same, bound i s at_]
    · simp [same]
  refine ⟨fun a b ne ha hb => frames a b ne ((filled a).mp ha) ((filled b).mp hb), ageOnce,
    fun u => (ageAll u).trans (filled u).symm, fun j u h => ?_, fun u h => ?_, fun j k u hj hk => ?_,
    orderOnce.filter _, fun j => ?_, fun h j => ?_⟩
  · dsimp only at h ⊢
    split at h
    · cases h
    · next other =>
      have apart : u ≠ s := by rintro rfl; exact other (one j i u h at_)
      simpa [apart] using bound j u h
  · by_cases same : u = s
    · simp [same] at h
    · obtain ⟨j, hj⟩ := owner u (by simpa [same] using h)
      have other : j ≠ i := by rintro rfl; exact same (Option.some.inj (hj.symm.trans at_))
      exact ⟨j, by simpa [other] using hj⟩
  · dsimp only at hj hk
    split at hj
    · cases hj
    · split at hk
      · cases hk
      · exact one j k u hj hk
  · by_cases same : j = i
    · simp [same]
    · simp [same, orderAll]
  · dsimp only
    split
    · rfl
    · exact free h j

/-- With no context bound, slots may become EMPTY (R96). -/
theorem BindingOk.vacate {keep : Nat → Bool} (ok : BindingOk state frame age slotOf order unplanned)
    (free : ∀ i, slotOf i = none) :
    BindingOk (fun u => if keep u then state u else .empty) (fun u => if keep u then frame u else 0)
      (age.filter keep) slotOf order unplanned := by
  obtain ⟨frames, ageOnce, ageAll, bound, owner, one, orderOnce, orderAll, unbound⟩ := ok
  have kept (u : Nat) (h : (if keep u then state u else .empty) ≠ SlotState.empty) :
      keep u = true ∧ state u ≠ .empty := by
    cases hk : keep u with
    | true => simpa [hk] using h
    | false => simp [hk] at h
  refine ⟨fun a b ne ha hb => ?_, ageOnce.filter _, fun u => ?_, fun i s h => ?_, fun u h => ?_, one, orderOnce, orderAll,
    unbound⟩
  · obtain ⟨keepA, someA⟩ := kept a ha
    obtain ⟨keepB, someB⟩ := kept b hb
    simpa [keepA, keepB] using frames a b ne someA someB
  · rw [List.mem_filter, ageAll]
    exact ⟨fun ⟨filled, hk⟩ => by simpa [hk] using filled, fun h => (kept u h).symm⟩
  · rw [free i] at h; cases h
  · have stays := (kept u (by dsimp only at h; rw [h]; exact nofun)).1
    obtain ⟨i, hi⟩ := owner u (by simpa [stays] using h)
    rw [free i] at hi; cases hi

/-- Nothing bound, and every slot EMPTY. -/
theorem BindingOk.bare (frame : Nat → FrameNo) (unplanned : Prop) :
    BindingOk (fun _ => .empty) frame [] (fun _ => none) [] unplanned := by
  simp [BindingOk]

end

/-! ### Slot tables seen as functions -/

theorem Ring.slot_set {r : Ring} {s : Nat} (x : Slot) (inside : s < r.slots.length) (u : Nat) :
    (r.slots.set s x).getD u .vacant = if u = s then x else r.slot u := by
  simp only [Ring.slot, List.getD_eq_getElem?_getD, List.getElem?_set, inside]
  by_cases same : s = u
  · simp [same]
  · simp [same, Ne.symm same]

/-- Table `m` has the states and the frame numbers of `l`. -/
def TableAlike (l m : List Slot) : Prop :=
  ∀ s, (m.getD s .vacant).state = (l.getD s .vacant).state ∧ (m.getD s .vacant).frame = (l.getD s .vacant).frame

theorem TableAlike.refl (l : List Slot) : TableAlike l l := fun _ => ⟨rfl, rfl⟩

theorem TableAlike.trans {l m n : List Slot} (h : TableAlike l m) (g : TableAlike m n) : TableAlike l n :=
  fun s => ⟨(g s).1.trans (h s).1, (g s).2.trans (h s).2⟩

theorem TableAlike.of_forall₂ {l m : List Slot}
    (h : List.Forall₂ (fun x y : Slot => y.state = x.state ∧ y.frame = x.frame) l m) : TableAlike l m := by
  induction h with
  | nil => exact .refl []
  | cons head _ ih =>
    intro s
    cases s with
    | zero => exact head
    | succ s => exact ih s

theorem TableAlike.modify (l : List Slot) (s : Nat) {f : Slot → Slot}
    (h : ∀ x, (f x).state = x.state ∧ (f x).frame = x.frame) : TableAlike l (l.modify s f) :=
  .of_forall₂ (List.forall₂_modify (fun _ => ⟨rfl, rfl⟩) fun x _ => h x)

section
variable {d e : Dev}

theorem TableAlike.handleDamage (d : Dev) (handle : List HandleEntry) :
    TableAlike d.ring.slots (d.handleDamage handle) := by
  rw [Dev.handleDamage_eq]
  split
  · exact .refl _
  · refine foldl_keeps (P := TableAlike d.ring.slots) handle (fun l h _ alike => ?_) (.refl _)
    unfold Dev.entryDamage
    split
    · exact alike.trans (.modify l h.slot fun _ => ⟨rfl, rfl⟩)
    · exact alike

/-- A block with the same states, frame numbers, age order and bindings, under the same plan. -/
theorem Dev.BindingSafe.of_alike (safe : d.BindingSafe) (slots : TableAlike d.ring.slots e.ring.slots)
    (age : e.ring.age = d.ring.age) (contexts : e.tracker.slotOf = d.tracker.slotOf)
    (order : e.tracker.order = d.tracker.order) (plan : e.plan.working = d.plan.working) : e.BindingSafe := by
  rw [Dev.bindingSafe_iff] at safe ⊢
  have states : (fun s => (e.ring.slot s).state) = fun s => (d.ring.slot s).state := funext fun s => (slots s).1
  have frames : (fun s => (e.ring.slot s).frame) = fun s => (d.ring.slot s).frame := funext fun s => (slots s).2
  rw [states, frames, age, contexts, order, plan]
  exact safe

/-- A block that differs in its slot table, alike. -/
theorem Dev.BindingSafe.of_slots {l : List Slot} {n : Nat} (safe : d.BindingSafe) (slots : TableAlike d.ring.slots l) :
    Dev.BindingSafe { d with ring := { d.ring with slots := l, holdCount := n } } :=
  safe.of_alike slots rfl rfl rfl rfl

theorem Dev.updFront_slotOf (i : CtxId) (t : Nat) (f : Front → Front) (d : Dev) :
    (d.updFront i t f).tracker.slotOf = d.tracker.slotOf := by
  funext j
  rw [Tracker.slotOf, Dev.updFront_ctx, Option.map_map, Tracker.slotOf]
  congr 1
  funext c
  simp only [Function.comp_apply]
  split <;> rfl

theorem Dev.updFront_order (i : CtxId) (t : Nat) (f : Front → Front) (d : Dev) :
    (d.updFront i t f).tracker.order = d.tracker.order := by cases i <;> rfl

/-- The slot a capture takes lies in the table and is EMPTY or CLOSED (R82). -/
theorem Ring.choose_idle {r : Ring} {k s : Nat} (inside : k ≤ r.slots.length) (chosen : r.choose k = some s)
    (age : ∀ s ∈ r.age, (r.slot s).state ≠ .empty) : s < r.slots.length ∧ (r.slot s).state ≠ .filling := by
  rcases r.choose_cases k with ⟨u, same, below, empty, -⟩ | ⟨-, ⟨u, l, m, same, reusable, order, -⟩ | ⟨none, -⟩⟩
  · obtain rfl : u = s := Option.some.inj (same.symm.trans chosen)
    exact ⟨by omega, by rw [empty]; exact nofun⟩
  · obtain rfl : u = s := Option.some.inj (same.symm.trans chosen)
    have closed := ((Slot.reusable_iff _).mp reusable).1
    exact ⟨Ring.lt_length_of_not_empty (age u (by simp [order])), by rw [closed]; exact nofun⟩
  · rw [none] at chosen; cases chosen

theorem Dev.BindingSafe.allocate {p : Plan} {s phase : Nat} {base : BitVec 32} {start : HeadTime} (safe : d.BindingSafe)
    (ring : d.RingSafe) (plan : d.PlanSafe) (hp : d.plan? = some p)
    (free : d.tracker.ctx0 = none ∨ d.tracker.ctx1 = none ∨ d.tracker.order = [])
    (chosen : d.ring.choose p.slots = some s) :
    (Dev.bindCtx p s start { d with ring := d.ring.allocate p s phase base d.timing.now }).BindingSafe := by
  have ok := d.bindingSafe_iff.mp safe
  obtain ⟨-, -, ageAll, -, -, -, -, orderAll, -⟩ := id ok
  obtain ⟨w, hw, rfl⟩ := Option.map_eq_some_iff.mp hp
  have length := ring.1
  have limit : w.plan.slots ≤ 32 := (plan.2.2.2 w hw).2.1
  obtain ⟨inside, idle⟩ := Ring.choose_idle (by omega) chosen fun u hu => (ageAll u).mp hu
  have unbound : ¬(d.tracker.ctx0 ≠ none ∧ d.tracker.ctx1 ≠ none) := by
    rintro ⟨bound0, bound1⟩
    rcases free with none0 | none1 | empty
    · exact bound0 none0
    · exact bound1 none1
    · have listed := (orderAll .c0).mpr (by simpa [Tracker.slotOf, Tracker.ctx] using bound0)
      rw [empty] at listed
      cases listed
  have fresh := (d.ring.frameFor_spec s (by omega)).1
  rcases Dev.bindCtx_cases w.plan s start { d with ring := d.ring.allocate w.plan s phase base d.timing.now } with
    ⟨bound0, bound1, -⟩ | ⟨i, unbound, order, -, ctx⟩
  · exact absurd ⟨bound0, bound1⟩ unbound
  · have allocated := ok.allocate (s := s) (i := i) (f := d.ring.frameFor s) idle (by simpa [Tracker.slotOf] using unbound)
      (fun u ne filled same => by
        have carries := (d.ring.carried_iff s (d.ring.frameFor s)).mpr ⟨u, Ring.lt_length_of_not_empty filled, ne, filled, same⟩
        rw [fresh] at carries; cases carries) (by simp [hw])
    have slot (u : Nat) : (d.ring.allocate w.plan s phase base d.timing.now).slot u =
        if u = s then Slot.allocated w.plan (d.ring.frameFor s) phase base else d.ring.slot u :=
      Ring.slot_set _ inside u
    have contexts : (Dev.bindCtx w.plan s start
        { d with ring := d.ring.allocate w.plan s phase base d.timing.now }).tracker.slotOf =
        fun j => if j = i then some s else d.tracker.slotOf j := by
      funext j
      rw [Tracker.slotOf, ctx]
      split <;> rfl
    rw [Dev.bindingSafe_iff, order, contexts]
    simp only [Dev.bindCtx_frame, slot, apply_ite Slot.state, apply_ite Slot.frame]
    exact allocated

theorem Dev.BindingSafe.shut {i : CtxId} {c : Context} (safe : d.BindingSafe) (bound : d.tracker.ctx i = some c) :
    (d.shutFrame i c).BindingSafe := by
  have ok := d.bindingSafe_iff.mp safe
  have at_ : d.tracker.slotOf i = some c.slot := by simp [Tracker.slotOf, bound]
  have filling : (d.ring.slot c.slot).state = .filling := ok.2.2.2.1 i c.slot at_
  have inside := Ring.lt_length_of_not_empty (r := d.ring) (u := c.slot) (by rw [filling]; exact nofun)
  have slot (u : Nat) : (d.shutFrame i c).ring.slot u = if u = c.slot then
      { d.ring.slot c.slot with state := .closed, outcomes := c.fronts.map (·.status.outcome) } else d.ring.slot u := by
    rw [Dev.shutFrame_ring, Ring.slot]
    dsimp only
    rw [Ring.modify_slots _ inside]
    exact Ring.slot_set _ inside u
  have frame (u : Nat) : ((d.shutFrame i c).ring.slot u).frame = (d.ring.slot u).frame := by
    rw [slot]
    split
    · next same => rw [same]
    · rfl
  have state (u : Nat) : ((d.shutFrame i c).ring.slot u).state = if u = c.slot then .closed else (d.ring.slot u).state := by
    rw [slot]
    split <;> rfl
  have contexts : (d.shutFrame i c).tracker.slotOf = fun j => if j = i then none else d.tracker.slotOf j := by
    funext j
    rw [Tracker.slotOf, Dev.shutFrame_ctx]
    split <;> rfl
  have order : (d.shutFrame i c).tracker.order = d.tracker.order.filter (· ≠ i) := by cases i <;> rfl
  have age : (d.shutFrame i c).ring.age = d.ring.age := by rw [Dev.shutFrame_ring]
  rw [Dev.bindingSafe_iff, contexts, order, age]
  simp only [frame, state, Dev.shutFrame_frame]
  exact ok.shut at_

theorem Dev.BindingSafe.vacate (safe : d.BindingSafe)
    (free : d.plan.working = none ∨ (d.tracker.ctx0 = none ∧ d.tracker.ctx1 = none)) : d.clearSlots.BindingSafe := by
  have ok := d.bindingSafe_iff.mp safe
  have unbound (i : CtxId) : d.tracker.slotOf i = none := by
    rcases free with unplanned | ⟨none0, none1⟩
    · exact ok.2.2.2.2.2.2.2.2 unplanned i
    · cases i
      · simp [Tracker.slotOf, Tracker.ctx, none0]
      · simp [Tracker.slotOf, Tracker.ctx, none1]
  have slot (u : Nat) : d.clearSlots.ring.slot u = if (d.ring.slot u).held then d.ring.slot u else .vacant := by
    simp only [Dev.clearSlots, Ring.slot, List.getD_eq_getElem?_getD, List.getElem?_map]
    cases d.ring.slots[u]? with
    | none => rfl
    | some x => rfl
  rw [Dev.bindingSafe_iff]
  simp only [slot, apply_ite Slot.state, apply_ite Slot.frame]
  exact ok.vacate (keep := fun u => (d.ring.slot u).held) unbound

/-- Every slot EMPTY and both contexts free. -/
theorem Dev.BindingSafe.bare (slots : ∀ x ∈ d.ring.slots, x = .vacant) (age : d.ring.age = []) (none0 : d.tracker.ctx0 = none)
    (none1 : d.tracker.ctx1 = none) (order : d.tracker.order = []) : d.BindingSafe := by
  have slot (u : Nat) : d.ring.slot u = .vacant := by
    simp only [Ring.slot, List.getD_eq_getElem?_getD]
    cases here : d.ring.slots[u]? with
    | none => rfl
    | some x => exact slots x (List.mem_of_getElem? here)
  have contexts : d.tracker.slotOf = fun _ => none := by
    funext i
    cases i
    · simp [Tracker.slotOf, Tracker.ctx, none0]
    · simp [Tracker.slotOf, Tracker.ctx, none1]
  rw [Dev.bindingSafe_iff, contexts, age, order]
  simp only [slot]
  exact BindingOk.bare _ _

theorem Dev.Act.bindingSafe (act : Dev.Act d e) (ring : d.RingSafe) (plan : d.PlanSafe) (safe : d.BindingSafe) :
    e.BindingSafe := by
  cases act with
  | error r _ => exact safe.of_slots (.handleDamage d r.handle)
  | slots l same => exact safe.of_slots (.of_forall₂ (same.imp fun x y h => ⟨h.1, h.2.1⟩))
  | hold s _ _ _ => exact safe.of_slots (.modify _ s fun _ => ⟨rfl, rfl⟩)
  | release s _ => exact safe.of_slots (.modify _ s fun _ => ⟨rfl, rfl⟩)
  | releaseEvery =>
    refine safe.of_slots (.of_forall₂ (List.forall₂_map_right_iff.mpr (List.forall₂_same.mpr fun x _ => ⟨rfl, rfl⟩)))
  | lines r slots age _ _ => exact safe.of_alike (by rw [slots]; exact .refl _) age rfl rfl rfl
  | allocate p s phase base start hp free chosen => exact safe.allocate ring plan hp free chosen
  | damage p s t f l _ _ _ => exact safe.of_slots (.modify _ s fun _ => ⟨rfl, rfl⟩)
  | stall p i c t g _ _ _ _ =>
    refine safe.of_alike ?_ (by rw [Dev.stallTile_ring]; rfl) (Dev.updFront_slotOf ..) (Dev.updFront_order ..) (by simp)
    rw [Dev.stallTile_ring]
    exact .modify _ c.slot fun _ => ⟨rfl, rfl⟩
  | front p i c t g f _ _ _ _ =>
    exact safe.of_alike (by simpa using .refl _) (by simp) (Dev.updFront_slotOf ..) (Dev.updFront_order ..) (by simp)
  | shut i c bound => exact safe.shut bound
  | vacate free => exact safe.vacate free
  | apply w _ => exact .bare (by simp [Ring.cleared]) rfl rfl rfl rfl
  | reset straps => exact .bare (by simp [Dev.release, Dev.released]) rfl rfl rfl rfl
  | _ => simpa [Dev.BindingSafe] using safe

end

/-- Settles O9: a capture binds a free context to a slot that is not FILLING, under a number no other slot carries; a close
frees the context; what empties slots finds no context bound. -/
theorem bindingsStaySafe : Obligations.BindingsStaySafe := fun _ _ ring plan binding h =>
  have all := step_keeps (P := fun d => d.RingSafe ∧ d.PlanSafe ∧ d.BindingSafe) (fun _ _ => id)
    (fun _ _ act ⟨ring, plan, binding⟩ => ⟨act.ringSafe ring, act.planSafe plan, act.bindingSafe ring plan binding⟩)
    ⟨ring, plan, binding⟩ h
  all.2.2

end Sys2Proof.Machine
end

section
/-! SUPPORT. The step, the queue of waiting commands, the orders' bytes and reset (O1 to O4, O11 to O14). -/

namespace Sys2Proof.Machine

/-! ### The queue of waiting commands (O1, O2) -/

/-- Settles O1: by definition of the step. -/
theorem stepRunsFrontCommand : Obligations.StepRunsFrontCommand := fun _ _ _ => rfl

/-- An effect passes the queue on unseen. -/
theorem Effect.queue {c : Instr} {f : State → Host.Outcome State Fault Refusal} {d : Dev} {q : List Instr} {t : State}
    (effect : Effect c f) (h : f ⟨d, q⟩ = .next t) : t.pending = q ∧ ∀ q', f ⟨d, q'⟩ = .next ⟨t.dev, q'⟩ := by
  cases effect with
  | run g _ =>
    rw [State.run_eq] at h
    cases h
    exact ⟨rfl, fun q' => State.run_eq ..⟩
  | reply mine tag reply => exact State.runReply_queue _ h
  | assert => cases h; exact ⟨rfl, fun _ => rfl⟩
  | release straps => cases h; exact ⟨rfl, fun _ => rfl⟩
  | park => cases h; exact ⟨rfl, fun _ => rfl⟩
  | unpark => cases h; exact ⟨rfl, fun _ => rfl⟩

/-- Settles O2: every command is one of the effects. -/
theorem execKeepsQueue : Obligations.ExecKeepsQueue := fun c _ _ _ h => (effect_exec c).queue h

/-! ### The orders' bytes (O4) -/

@[simp] theorem bodyField_append {a b : List Byte} {off n : Nat} (h : a.length ≤ off) :
    bodyField (a ++ b) off n = bodyField b (off - a.length) n := by
  rw [bodyField, List.drop_append, List.drop_eq_nil_of_le h, List.nil_append, bodyField]

@[simp] theorem bodyField_cons (x : Byte) (b : List Byte) (off n : Nat) : bodyField (x :: b) (off + 1) n = bodyField b off n := rfl

@[simp] theorem bodyField_byte (x : Byte) (b : List Byte) : bodyField (x :: b) 0 1 = x.toNat := by simp [bodyField, leNat]

/-- A field written in its own width is read back. -/
@[simp] theorem bodyField_leBytes {w n : Nat} (h : w = 8 * n) (x : BitVec w) (b : List Byte) :
    bodyField (leBytes n x.toNat ++ b) 0 n = x.toNat := by
  have size : 256 ^ n = 2 ^ w := by rw [h, Nat.pow_mul]
  rw [bodyField, List.drop_zero, List.take_append_of_le_length (by simp), List.take_of_length_le (by simp), leNat_leBytes,
    size, Nat.mod_eq_of_lt x.isLt]

@[simp] theorem bodyField_leBytes_nil {w n : Nat} (h : w = 8 * n) (x : BitVec w) :
    bodyField (leBytes n x.toNat) 0 n = x.toNat := by
  simpa using bodyField_leBytes h x []

/-- The bytes behind a tag and an offset. -/
@[simp] theorem drop_tag_offset (tag offset : Nat) (b : List Byte) :
    (leBytes 2 tag ++ (leBytes 3 offset ++ b)).drop 5 = b := by
  rw [← List.append_assoc, List.drop_left' (by simp)]

/-- Settles O4: each field is read where it was written, in its own width. -/
theorem orderBytesRoundTrip : Obligations.OrderBytesRoundTrip := by
  intro c o wf encoded
  cases c
  case gateUnknownAction tag action =>
    cases encoded
    have unknown : 4 ≤ action.toNat := of_decide_eq_true wf
    simp [decodeOrder, orderLengthOk, decodeGate]
    split <;> simp_all
  case write tag offset bytes =>
    cases encoded
    have length : 1 ≤ bytes.length ∧ bytes.length ≤ 64 := by simpa [Instr.wf] using wf
    have ok : orderLengthOk 0x33 (2 + (3 + bytes.length)) = true := by simp [orderLengthOk]; omega
    simp [decodeOrder, ok]
  case writeNext tag bytes =>
    cases encoded
    have length : 1 ≤ bytes.length ∧ bytes.length ≤ 64 := by simpa [Instr.wf] using wf
    have ok : orderLengthOk 0x35 (2 + bytes.length) = true := by simp [orderLengthOk]; omega
    simp [decodeOrder, ok]
  case maskWrite tag offset value mask =>
    cases encoded
    obtain ⟨length, same⟩ : (1 ≤ value.length ∧ value.length ≤ 8) ∧ mask.length = value.length := by
      simpa [Instr.wf] using wf
    have ok : orderLengthOk 0x36 (2 + (3 + (value.length + mask.length))) = true := by simp [orderLengthOk]; omega
    have half : (2 + (3 + (value.length + mask.length)) - 5) / 2 = value.length := by omega
    simp [decodeOrder, ok, half, ← List.drop_drop]
  case replay tag frame first count paced =>
    cases encoded
    cases paced <;> simp [decodeOrder, orderLengthOk]
  all_goals cases encoded
  all_goals simp [decodeOrder, orderLengthOk, decodeGate]

/-! ### Reset (O11 to O13) -/

/-- Settles O11: the reset state is bare. -/
theorem resetIsSafe : Obligations.ResetIsSafe := by
  refine ⟨?_, ?_, ?_, ?_, ?_, ?_, ?_, ?_, ?_, ?_, ?_⟩
  · simp [Dev.QueueSafe, State.reset, Dev.released]
  · simp [Dev.PathSafe, State.reset, Dev.released]
  · simp [Dev.UplinkSafe, State.reset, Dev.released]
  · simp [Dev.TimingSafe, State.reset, Dev.released]
  · simp [Dev.RingSafe, State.reset, Dev.released, Slot.vacant]
  · simp [Dev.ReplaySafe, State.reset, Dev.released]
  · simp [Dev.FeedSafe, Feed.Safe, Feed.DrainFits, Feed.inForce, ringLimits, Dev.PlanSafe, Memory.wf, Memory.wfFrom,
      State.reset, Dev.released]
  · simp [Dev.ScheduleSafe, Dev.PlanSafe, Memory.wf, Memory.wfFrom, State.reset, Dev.released]
  · exact .bare (by simp [State.reset, Dev.released]) rfl rfl rfl rfl
  · rw [Dev.trackSafe_iff]
    have free (i : CtxId) (c : Context) : State.reset.dev.tracker.ctx i ≠ some c := by cases i <;> exact nofun
    exact ⟨by simp [State.reset, Dev.released], fun i c bound => absurd bound (free i c), by simp [State.reset, Dev.released],
      by simp [State.reset, Dev.released]⟩
  · simp [Dev.HeldInReset, State.reset, Dev.released]

/-- Settles O12: the reset state spells these values. -/
theorem resetValues : Obligations.ResetValues := by
  refine ⟨rfl, rfl, rfl, rfl, rfl, fun _ => rfl, rfl, rfl, rfl, rfl, fun _ => rfl, ?_⟩
  repeat' constructor

/-- Only the pin asserts RESET. -/
theorem Dev.Act.released {d e : Dev} (act : Dev.Act d e) (h : d.resetAsserted = false) : e.resetAsserted = false := by
  cases act with
  | reset straps => simp [Dev.release, Dev.released]
  | _ => simpa using h

theorem Dev.Acts.released {d e : Dev} (acts : d.Acts e) (h : d.resetAsserted = false) : e.resetAsserted = false :=
  acts.keeps (P := fun d => d.resetAsserted = false) (fun _ _ act => act.released) h

/-- RESET holds off every command but four (R17). -/
theorem Effect.held {c : Instr} {f : State → Host.Outcome State Fault Refusal} {d : Dev} (q : List Instr)
    (effect : Effect c f) (h : d.resetAsserted = true) (assert : c ≠ .resetAssert)
    (release : ∀ straps, c ≠ .deviceReset straps) (park : c ≠ .parkedAssert) (unpark : c ≠ .parkedWithdraw) :
    f ⟨d, q⟩ = .next ⟨d, q⟩ := by
  cases effect with
  | run g _ => simp [State.run, h]
  | reply mine tag reply => simp [State.runReply, h]
  | assert => exact absurd rfl assert
  | release straps => exact absurd rfl (release straps)
  | park => exact absurd rfl park
  | unpark => exact absurd rfl unpark

theorem Effect.heldInReset {c : Instr} {f : State → Host.Outcome State Fault Refusal} {s t : State}
    (effect : Effect c f) (safe : s.dev.HeldInReset) (h : f s = .next t) : t.dev.HeldInReset := by
  cases effect with
  | run g acts =>
    rw [State.run] at h
    split at h
    · cases h; exact safe
    · next free =>
      cases h
      exact fun asserted => absurd ((acts _).released (by simpa using free)) (by simpa using asserted)
  | reply mine tag reply =>
    rw [State.runReply] at h
    split at h
    · cases h; exact safe
    · next free =>
      split at h
      · next answered =>
        cases h
        exact fun asserted => absurd ((Dev.acts_response answered).released (by simpa using free)) (by simpa using asserted)
      · cases h
      · cases h
  | assert => cases h; exact fun _ => ⟨rfl, rfl, rfl, rfl, rfl⟩
  | release straps => cases h; exact fun asserted => by simp [Dev.release, Dev.released] at asserted
  | park => cases h; exact safe
  | unpark => cases h; exact safe

theorem step_heldInReset {s t : State} (safe : s.dev.HeldInReset) (h : step s = .next t) : t.dev.HeldInReset := by
  unfold step at h
  split at h
  · cases h
    unfold State.idle
    split
    · exact safe
    · next free =>
      have never (d : Dev) (same : d.resetAsserted = s.dev.resetAsserted) : d.HeldInReset := fun asserted => by
        rw [same] at asserted; exact absurd asserted free
      split
      · exact never _ rfl
      · exact never _ rfl
      · exact never _ rfl
  · next c cs _ => exact (effect_exec c).heldInReset (s := { s with pending := cs }) safe h

/-- Settles O13: of the commands RESET holds off all but four, and the release is a fresh block with its first record. -/
theorem resetHoldsAndReleases : Obligations.ResetHoldsAndReleases := by
  refine ⟨fun d q => rfl, fun c d q asserted h1 h2 h3 h4 => (effect_exec c).held q asserted h1 h2 h3 h4,
    fun s t => step_heldInReset, fun d q straps => ⟨?_, rfl, rfl, rfl, rfl, rfl⟩⟩
  have clamp : clampPlanBase straps =
      (if straps.planBase.toNat * 1073741824 < MemSize.bytes straps.memSize then straps.planBase else 0,
        !decide (straps.planBase.toNat * 1073741824 < MemSize.bytes straps.memSize)) := by
    unfold clampPlanBase
    split <;> simp [*]
  show Host.Outcome.next (⟨d.release straps, q⟩ : State) = _
  simp only [Dev.release, clamp]
  rfl

/-- Settles O14: the port takes a request when it holds none. -/
theorem headSideAndParked : Obligations.HeadSideAndParked := by
  refine fun d q ident op => ⟨fun released empty => ?_, fun r waits => ?_, rfl, rfl⟩
  · have taken : d.takeRequest ident op = { d with mem := { d.mem with transit := some ⟨ident, op⟩ } } := by
      simp [Dev.takeRequest, empty]
    rw [← taken]
    exact State.run_of_released _ released
  · have same : d.takeRequest ident op = d := by simp [Dev.takeRequest, waits]
    show State.run (Dev.takeRequest ident op) ⟨d, q⟩ = _
    rw [State.run_eq, same, ite_self]

end Sys2Proof.Machine
end

section
/-! SUPPORT. The clock: which events are due, each once (O3); memory responses (O19). -/

namespace Sys2Proof.Machine

/-! ### The parts of the due events -/

section
variable {d : Dev} {c : Instr}

theorem reached_iff (now t : HeadTime) : reached now t = true ↔ (now - t).toNat < 2147483648 := decide_eq_true_iff

theorem dueAt_iff (now : HeadTime) (x : Option HeadTime) :
    dueAt now x = true ↔ ∃ t, x = some t ∧ (now - t).toNat < 2147483648 := by
  cases x <;> simp [dueAt, reached_iff]

theorem Dev.unplanned_iff (d : Dev) : d.unplanned = true ↔ d.plan.state = .unplanned := decide_eq_true_iff

theorem mem_whenDue {b : Bool} {x : Instr} : c ∈ whenDue b x ↔ c = x ∧ b = true := by
  unfold whenDue
  split <;> simp [*]

theorem nodup_whenDue (b : Bool) (x : Instr) : (whenDue b x).Nodup := by
  unfold whenDue
  split <;> simp

theorem mem_expiredTiles {n : Nat} {i : CtxId} : c ∈ d.expiredTiles n i ↔ ∃ t w x g, c = .tileDeadlineExpiry n t ∧
    d.plan.working = some w ∧ d.tracker.ctx i = some x ∧ x.fronts[t]? = some g ∧ g.status = .running ∧
    (d.timing.now - w.plan.deadline x g).toNat < 2147483648 := by
  have expired (p : Plan) (x : Context) (t : Nat) : d.tileExpired p x t = true ↔ ∃ g, x.fronts[t]? = some g ∧
      g.status = .running ∧ (d.timing.now - p.deadline x g).toNat < 2147483648 := by
    unfold Dev.tileExpired
    cases x.fronts[t]? <;> simp [reached_iff]
  have inside (x : Context) (t : Nat) (g : Front) (front : x.fronts[t]? = some g) : t < x.fronts.length :=
    (List.getElem?_eq_some_iff.mp front).1
  unfold Dev.expiredTiles
  split
  · next p x hp bound =>
    obtain ⟨w, working, rfl⟩ := Option.map_eq_some_iff.mp hp
    simp only [List.mem_map, List.mem_filter, List.mem_range, expired, working, bound, Option.some.injEq]
    constructor
    · rintro ⟨t, ⟨-, g, due⟩, rfl⟩
      exact ⟨t, w, x, g, rfl, rfl, rfl, due⟩
    · rintro ⟨t, v, y, g, rfl, rfl, rfl, front, due⟩
      exact ⟨t, ⟨inside x t g front, g, front, due⟩, rfl⟩
  · next none =>
    refine ⟨fun h => (nomatch h), ?_⟩
    rintro ⟨t, w, x, g, -, working, bound, -⟩
    exact absurd bound (none w.plan x (by simp [Dev.plan?, working]))

/-- The events of the tiles of either context. -/
theorem mem_expiredTiles_either : (c ∈ d.expiredTiles 0 .c0 ∨ c ∈ d.expiredTiles 1 .c1) ↔
    ∃ n i t w x g, c = .tileDeadlineExpiry n t ∧ (n = 0 ∧ i = .c0 ∨ n = 1 ∧ i = .c1) ∧ d.plan.working = some w ∧
      d.tracker.ctx i = some x ∧ x.fronts[t]? = some g ∧ g.status = .running ∧
      (d.timing.now - if g.seen then g.lastAdvance + BitVec.ofNat 32 (2 ^ w.plan.rowUnit * 256 * w.plan.rowCount)
        else x.frameStart + BitVec.ofNat 32 w.plan.startAllowance).toNat < 2147483648 := by
  rw [mem_expiredTiles, mem_expiredTiles]
  constructor
  · rintro (⟨t, w, x, g, event, tile⟩ | ⟨t, w, x, g, event, tile⟩)
    · exact ⟨0, .c0, t, w, x, g, event, .inl ⟨rfl, rfl⟩, tile⟩
    · exact ⟨1, .c1, t, w, x, g, event, .inr ⟨rfl, rfl⟩, tile⟩
  · rintro ⟨n, i, t, w, x, g, event, ⟨rfl, rfl⟩ | ⟨rfl, rfl⟩, tile⟩
    · exact .inl ⟨t, w, x, g, event, tile⟩
    · exact .inr ⟨t, w, x, g, event, tile⟩

theorem nodup_expiredTiles (d : Dev) (n : Nat) (i : CtxId) : (d.expiredTiles n i).Nodup := by
  unfold Dev.expiredTiles
  split
  · exact (List.nodup_range.filter _).map fun a b same => by injection same
  · exact List.nodup_nil

theorem mem_nextOrder : c ∈ d.nextOrder.toList ↔ ∃ o rest, d.uplink.executor = .idle ∧ d.downlink.ctrl.length < 64 ∧
    d.uplink.orders = o :: rest ∧ decodeOrder o = some c := by
  have free : 1 ≤ d.downlink.free ↔ d.downlink.ctrl.length < 64 := by unfold Downlink.free; omega
  unfold Dev.nextOrder
  split
  · next o rest idle orders =>
    simp only [idle, orders, free]
    split
    · simp [*]
    · simp [*]
  · next none =>
    refine ⟨fun h => (nomatch h), ?_⟩
    rintro ⟨o, rest, idle, -, orders, -⟩
    exact absurd orders (none o rest idle)

/-! ### Each event once -/

/-- The place of a command among the due events. -/
def Instr.place : Instr → Nat
  | .cellBoundary => 0
  | .echoTimer => 1
  | .reportTimer => 2
  | .headStatusTimer => 3
  | .anchorEvent => 4
  | .capture => 5
  | .frameStartEnd => 6
  | .referenceLossDeadline => 7
  | .missingFrameExpiry => 8
  | .tileDeadlineExpiry n _ => if n = 0 then 9 else 10
  | _ => 11

/-- What the bytes of an order spell is no timed event. -/
theorem place_of_decodeOrder {o : RawOrder} (h : decodeOrder o = some c) : Instr.place c = 11 := by
  have gate (tag : Tag) (body : List Byte) : Instr.place (decodeGate tag body) = 11 := by
    unfold decodeGate
    split <;> rfl
  unfold decodeOrder at h
  dsimp only at h
  split at h
  · cases h
  · split at h
    case h_1 => cases h; exact gate ..
    case h_3 | h_5 => cases h; split <;> rfl
    all_goals cases h
    all_goals rfl

/-- Events without repeats, all of them before a place. -/
def Once (k : Nat) (l : List Instr) : Prop := l.Nodup ∧ ∀ c ∈ l, Instr.place c < k

theorem Once.append {k : Nat} {l m : List Instr} (h : Once k l) (nodup : m.Nodup) (place : ∀ c ∈ m, Instr.place c = k) :
    Once (k + 1) (l ++ m) := by
  refine ⟨h.1.append nodup fun c hl hm => ?_, fun c hc => ?_⟩
  · have before := h.2 c hl
    have at_ := place c hm
    omega
  · rcases List.mem_append.mp hc with old | new
    · have before := h.2 c old; omega
    · have at_ := place c new; omega

theorem Once.whenDue {k : Nat} {l : List Instr} {x : Instr} (h : Once k l) (b : Bool) (place : Instr.place x = k) :
    Once (k + 1) (l ++ whenDue b x) :=
  h.append (nodup_whenDue b x) fun c hc => by rw [(mem_whenDue.mp hc).1, place]

theorem Dev.nodup_dueEvents (d : Dev) : d.dueEvents.Nodup := by
  have boundary (b : Bool) : Once 1 (whenDue b .cellBoundary) := by
    simpa using Once.whenDue (k := 0) (l := []) ⟨List.nodup_nil, by simp⟩ b rfl
  have expired (n : Nat) (i : CtxId) (k : Nat) (hk : k = if n = 0 then 9 else 10) :
      ∀ c ∈ d.expiredTiles n i, Instr.place c = k := fun c hc => by
    obtain ⟨t, -, -, -, rfl, -⟩ := mem_expiredTiles.mp hc
    exact hk.symm
  have timed := ((((((((boundary (reached d.timing.now d.downlink.nextBoundary)).whenDue d.echoIsDue
    (x := .echoTimer) rfl).whenDue d.reportIsDue (x := .reportTimer) rfl).whenDue d.statusIsDue
    (x := .headStatusTimer) rfl).whenDue (dueAt d.timing.now d.timing.nextAnchor) (x := .anchorEvent) rfl).whenDue
    d.captureIsDue (x := .capture) rfl).whenDue (dueAt d.timing.now d.ring.frameStartEnd)
    (x := .frameStartEnd) rfl).whenDue (dueAt d.timing.now d.timing.lossDeadline)
    (x := .referenceLossDeadline) rfl).whenDue (dueAt d.timing.now d.uplink.missingDue) (x := .missingFrameExpiry) rfl
  have tiles := (timed.append (nodup_expiredTiles d 0 .c0) (expired 0 .c0 9 rfl)).append
    (nodup_expiredTiles d 1 .c1) (expired 1 .c1 10 rfl)
  have order : d.nextOrder.toList.Nodup := by cases d.nextOrder <;> simp
  exact (tiles.append order fun c hc => by
    obtain ⟨o, -, -, -, -, spelt⟩ := mem_nextOrder.mp hc
    exact place_of_decodeOrder spelt).1

end

theorem Dev.captureIsDue_iff (d : Dev) : d.captureIsDue = true ↔
    ∃ g rest, d.timing.inGroup = g :: rest ∧ (d.timing.now - g.at_).toNat < 2147483648 := by
  unfold Dev.captureIsDue
  cases d.timing.inGroup <;> simp [dueAt, reached_iff]

/-- The idle step with events due: they become the waiting commands, in one of their orders. -/
theorem State.idle_of_due {d : Dev} (released : d.resetAsserted = false) (due : d.dueEvents ≠ []) :
    ∃ n q, State.idle ⟨d, []⟩ = ⟨{ d with freeCount := n }, q⟩ ∧ q.Perm d.dueEvents := by
  rw [State.idle, if_neg (by simp [released])]
  dsimp only
  split
  · next none => exact absurd none due
  · next c one => exact ⟨d.freeCount, [c], rfl, by rw [one]⟩
  · next c c' cs more => exact ⟨_, _, rfl, by rw [more]; exact pickOrder_perm ..⟩

/-- Settles O3: the idle step by the events due, and the parts of their list. -/
theorem idleStepIsTheClock : Obligations.IdleStepIsTheClock := by
  refine fun d => ⟨fun asserted => ?_, fun released none => ?_, fun released due => ?_, d.nodup_dueEvents, fun c => ?_⟩
  · simp [step, State.idle, asserted]
  · simp [step, State.idle, released, none, Dev.tick, Dev.updTiming]
  · obtain ⟨n, q, idle, perm⟩ := State.idle_of_due released due
    exact ⟨n, q, congrArg _ idle, perm⟩
  · simp only [Dev.dueEvents, List.mem_append, mem_whenDue, mem_nextOrder, or_assoc, reached_iff,
      dueAt_iff, Dev.echoIsDue, Dev.reportIsDue, Dev.statusIsDue, Bool.and_eq_true, Dev.unplanned_iff,
      Dev.captureIsDue_iff]
    rw [← or_assoc (a := c ∈ d.expiredTiles 0 .c0), mem_expiredTiles_either]

/-! ### Memory responses (O19) -/

/-- Settles O19: the record decides; an error is counted and damages the rows of its handle. -/
theorem memoryResponses : Obligations.MemoryResponses := by
  refine fun d q tag reply r ident released => ⟨fun none => State.runReply_unmatched _ none, fun found owner fits => ?_,
    fun found misfit => ?_⟩
  · refine (State.runReply_deliver Owner.any released found rfl fits).trans ?_
    rw [owner]
    cases reply with
    | data bytes => rfl
    | done => rfl
    | error => rw [Dev.countError_handle]; rfl
  · show State.runReply (Dev.response Owner.any tag reply) ⟨d, q⟩ = _
    simp [State.runReply, released, Dev.response, found, misfit, Owner.any]

end Sys2Proof.Machine
end

section
/-! SUPPORT. The write classifier (section 1.2): how a write is cut (O17), and writes that no region holds. -/

namespace Sys2Proof.Machine

/-! ### Cutting the bytes of a write -/

section
variable {cut : Nat → Bool}

/-- The first piece begins at the write's address. -/
theorem cutBytes_head (cut : Nat → Bool) (a : Nat) {bytes : List Byte} (some : bytes ≠ []) :
    ∃ p rest, cutBytes cut a bytes = (a, p) :: rest := by
  cases bytes with
  | nil => exact absurd rfl some
  | cons b bs =>
    unfold cutBytes
    split
    · exact ⟨[b], [], rfl⟩
    · split
      · exact ⟨[b], _, rfl⟩
      · exact ⟨_, _, rfl⟩

/-- A write of more than one byte: the pieces of the later bytes, and the first byte with or before the first of them. -/
theorem cutBytes_cons (cut : Nat → Bool) (a : Nat) (b : Byte) {bs : List Byte} (more : bs ≠ []) :
    ∃ p rest, cutBytes cut (a + 1) bs = (a + 1, p) :: rest ∧ cutBytes cut a (b :: bs) =
      if cut (a + 1) then (a, [b]) :: (a + 1, p) :: rest else (a, b :: p) :: rest := by
  obtain ⟨p, rest, later⟩ := cutBytes_head cut (a + 1) more
  exact ⟨p, rest, later, by rw [cutBytes, later]⟩

/-- Pieces that adjoin from an address on, none of them empty. -/
def Adjoin : Nat → List (Nat × List Byte) → Prop
  | _, [] => True
  | a, x :: xs => x.1 = a ∧ x.2 ≠ [] ∧ Adjoin (a + x.2.length) xs

theorem adjoin_cutBytes (cut : Nat → Bool) (a : Nat) (bytes : List Byte) : Adjoin a (cutBytes cut a bytes) := by
  induction bytes generalizing a with
  | nil => trivial
  | cons b bs ih =>
    by_cases more : bs = []
    · subst more; exact ⟨rfl, by simp, trivial⟩
    · obtain ⟨p, rest, later, pieces⟩ := cutBytes_cons cut a b more
      have adjoin := ih (a + 1)
      rw [later] at adjoin
      obtain ⟨-, some, behind⟩ := adjoin
      rw [pieces]
      split
      · exact ⟨rfl, by simp, rfl, some, behind⟩
      · refine ⟨rfl, by simp, ?_⟩
        rw [List.length_cons, Nat.add_comm p.length, ← Nat.add_assoc]
        exact behind

/-- Every piece begins at the address or behind it. -/
theorem Adjoin.le {a : Nat} {ps : List (Nat × List Byte)} (h : Adjoin a ps) : ∀ x ∈ ps, a ≤ x.1 := by
  induction ps generalizing a with
  | nil => simp
  | cons y ps ih =>
    obtain ⟨start, -, rest⟩ := h
    refine List.forall_mem_cons.mpr ⟨start.ge, fun x hx => ?_⟩
    have behind := ih rest x hx
    omega

/-- A piece begins behind the bytes of those before it. -/
theorem Adjoin.start {a : Nat} {l r : List (Nat × List Byte)} {x : Nat × List Byte} (h : Adjoin a (l ++ x :: r)) :
    x.1 = a + (l.flatMap fun y => y.2).length := by
  induction l generalizing a with
  | nil => simpa using h.1
  | cons y l ih =>
    rw [ih h.2.2, List.flatMap_cons, List.length_append, Nat.add_assoc]

/-- No piece is empty. -/
theorem Adjoin.ne_nil {a : Nat} {ps : List (Nat × List Byte)} (h : Adjoin a ps) : ∀ x ∈ ps, x.2 ≠ [] := by
  induction ps generalizing a with
  | nil => simp
  | cons y ps ih =>
    obtain ⟨-, some, rest⟩ := h
    exact List.forall_mem_cons.mpr ⟨some, ih rest⟩

theorem flatMap_cutBytes (cut : Nat → Bool) (a : Nat) (bytes : List Byte) :
    ((cutBytes cut a bytes).flatMap fun x => x.2) = bytes := by
  induction bytes generalizing a with
  | nil => rfl
  | cons b bs ih =>
    by_cases more : bs = []
    · subst more; rfl
    · obtain ⟨p, rest, later, pieces⟩ := cutBytes_cons cut a b more
      have bytes := ih (a + 1)
      rw [later, List.flatMap_cons] at bytes
      rw [pieces]
      split <;> simp [← bytes]

/-- The pieces begin at the cuts strictly inside the write. -/
theorem cut_iff_start (cut : Nat → Bool) (a : Nat) (bytes : List Byte) {k : Nat} (above : a < k)
    (below : k < a + bytes.length) : cut k = true ↔ ∃ x ∈ cutBytes cut a bytes, x.1 = k := by
  induction bytes generalizing a with
  | nil => simp at below; omega
  | cons b bs ih =>
    rw [List.length_cons] at below
    have more : bs ≠ [] := by rintro rfl; simp at below; omega
    obtain ⟨p, rest, later, pieces⟩ := cutBytes_cons cut a b more
    have adjoin := adjoin_cutBytes cut (a + 1) bs
    rw [later] at adjoin
    obtain ⟨-, some, behind⟩ := adjoin
    have positive := List.length_pos_iff.mpr some
    rw [pieces]
    by_cases next : k = a + 1
    · subst next
      split
      · next isCut => simp [isCut]
      · next noCut =>
        refine iff_of_false noCut ?_
        rintro ⟨x, hx, start⟩
        rcases List.mem_cons.mp hx with rfl | hx
        · simp at start
        · have past := behind.le x hx
          omega
    · rw [ih (a + 1) (by omega) (by omega), later]
      have first : a + 1 ≠ k := fun h => next h.symm
      have zeroth : a ≠ k := by omega
      split <;> simp [first, zeroth]

/-- A cut splits the pieces. -/
theorem cutBytes_append {a : Nat} {l r : List Byte} (some : l ≠ []) (more : r ≠ []) (isCut : cut (a + l.length) = true) :
    cutBytes cut a (l ++ r) = cutBytes cut a l ++ cutBytes cut (a + l.length) r := by
  induction l generalizing a with
  | nil => exact absurd rfl some
  | cons b l ih =>
    rw [List.length_cons, Nat.add_comm l.length, ← Nat.add_assoc] at isCut ⊢
    by_cases last : l = []
    · subst last
      obtain ⟨p, rest, later, pieces⟩ := cutBytes_cons cut a b more
      rw [List.singleton_append, pieces]
      simp only [List.length_nil, Nat.add_zero] at isCut ⊢
      rw [if_pos isCut, later]
      rfl
    · obtain ⟨p, rest, later, pieces⟩ := cutBytes_cons cut a b last
      obtain ⟨p', rest', later', pieces'⟩ := cutBytes_cons cut a b (bs := l ++ r) (by simp [last])
      rw [ih last isCut, later, List.cons_append] at later'
      injection later' with first others
      injection first with _ same
      subst same
      rw [List.cons_append, pieces', pieces, ← others]
      split <;> rfl

/-- Bytes without a cut strictly inside are one piece. -/
theorem cutBytes_single {a : Nat} {bytes : List Byte} (some : bytes ≠ [])
    (noCut : ∀ k, a < k → k < a + bytes.length → cut k = false) : cutBytes cut a bytes = [(a, bytes)] := by
  have adjoin := adjoin_cutBytes cut a bytes
  have all := flatMap_cutBytes cut a bytes
  have starts (k : Nat) (above : a < k) (below : k < a + bytes.length) := cut_iff_start cut a bytes above below
  obtain ⟨p, rest, pieces⟩ := cutBytes_head cut a some
  rw [pieces] at adjoin all starts ⊢
  cases rest with
  | nil => simp only [List.flatMap_cons, List.flatMap_nil, List.append_nil] at all; rw [all]
  | cons x rest =>
    obtain ⟨-, someP, start, someX, -⟩ := adjoin
    have positiveP := List.length_pos_iff.mpr someP
    have positiveX := List.length_pos_iff.mpr someX
    have length := congrArg List.length all
    simp only [List.flatMap_cons, List.length_append] at length
    dsimp only at start positiveP
    have isCut := (starts x.1 (by omega) (by omega)).mpr ⟨x, by simp, rfl⟩
    rw [noCut x.1 (by omega) (by omega)] at isCut
    cases isCut

end

/-- Settles O17: the pieces adjoin, hold the bytes, and begin at the cuts. -/
theorem piecesOfAWrite : Obligations.PiecesOfAWrite := by
  intro d a bytes
  have adjoin := adjoin_cutBytes (isBoundary d.regions) a bytes
  refine ⟨flatMap_cutBytes _ a bytes, adjoin.ne_nil, fun l r x pieces => ?_, fun k above below =>
    cut_iff_start _ a bytes above below⟩
  rw [Dev.pieces] at pieces
  rw [pieces] at adjoin
  exact adjoin.start

end Sys2Proof.Machine
end

section
/-! SUPPORT. Grants (section 1.3): who is chosen, what each grant does to the block (O15, O16). -/

namespace Sys2Proof.Machine

/-! ### Which write no unit sees (section 1.2) -/

/-- The write [a, a + n) ends at the range [b, e) or before it, or begins at its end or behind it. -/
def Apart (a n : Nat) (r : Nat × Nat) : Prop := a + n ≤ r.1 ∨ r.2 ≤ a

/-- No end of the range lies strictly inside the write. -/
def Uncut (a n : Nat) (r : Nat × Nat) : Prop := ¬(a < r.1 ∧ r.1 < a + n) ∧ ¬(a < r.2 ∧ r.2 < a + n)

theorem Apart.uncut {a n : Nat} {r : Nat × Nat} (h : Apart a n r) (le : r.1 ≤ r.2) : Uncut a n r := by
  unfold Apart at h
  unfold Uncut
  omega

/-- Without a region's end inside it a write is one piece. -/
theorem Dev.classify_single {d : Dev} {a : Nat} {bytes : List Byte} (some : bytes ≠ [])
    (uncut : ∀ r ∈ d.regions, Uncut a bytes.length r) :
    d.classify a bytes = d.takePiece d.plan? d.watch a bytes (a, bytes) := by
  have noCut (k : Nat) (above : a < k) (below : k < a + bytes.length) : isBoundary d.regions k = false := by
    rw [isBoundary, List.any_eq_false]
    intro r hr
    obtain ⟨first, last⟩ := uncut r hr
    simp only [Bool.or_eq_true, decide_eq_true_eq]
    omega
  rw [Dev.classify, Dev.pieces, cutBytes_single some noCut]
  rfl

/-- A piece outside the plan region does not reach the plan unit. -/
theorem Dev.toPlanUnit_apart {d : Dev} {k : Nat} {piece : List Byte}
    (off : k < d.mem.planAddr ∨ d.mem.planAddr + 65536 ≤ k) : d.toPlanUnit k piece = d :=
  if_neg (by omega)

/-- A write apart from the entry does not overlap it. -/
theorem overlapping_apart {a n w len : Nat} (h : Apart a n (w, w + len)) : overlapping a n w len = false := by
  unfold Apart at h
  simp only [overlapping, Bool.and_eq_false_iff, decide_eq_false_iff_not]
  dsimp only at h
  omega

/-- No entry is hit by a write apart from all of them. -/
theorem Watch.hitIds_apart {w : Watch} {a n : Nat}
    (apart : ∀ id e, w.entry id = some e → Apart a n (e.addr, e.addr + e.len)) (k len : Nat) :
    w.hitIds a n k len = [] := by
  rw [Watch.hitIds, List.filter_eq_nil_iff]
  intro id _
  split
  · simp
  · next e armed => simp [overlapping_apart (apart id e armed)]

theorem Watch.seedHit_apart {w : Watch} {a n : Nat}
    (apart : ∀ s, w.seeding = some s → Apart a n (s.addr, s.addr + s.len)) (k len : Nat) :
    w.seedHit a n k len = false := by
  unfold Watch.seedHit
  split
  · rfl
  · next s seeding => simp [overlapping_apart (apart s seeding)]

/-- The watched ranges: those of the ARMED entries and of the seeding record. -/
theorem Watch.mem_windows {w : Watch} {r : Nat × Nat} : r ∈ w.windows ↔
    (∃ id e, w.entry id = some e ∧ r = (e.addr, e.addr + e.len)) ∨
      ∃ s, w.seeding = some s ∧ r = (s.addr, s.addr + s.len) := by
  have armed : (∃ x ∈ w.table, ∃ e, x = some e ∧ (e.addr, e.addr + e.len) = r) ↔
      ∃ id e, w.entry id = some e ∧ r = (e.addr, e.addr + e.len) := by
    constructor
    · rintro ⟨x, hx, e, rfl, rfl⟩
      obtain ⟨id, at_⟩ := List.mem_iff_getElem?.mp hx
      exact ⟨id, e, by simp [Watch.entry, at_], rfl⟩
    · rintro ⟨id, e, entry, rfl⟩
      exact ⟨some e, List.mem_iff_getElem?.mpr ⟨id, Option.join_eq_some_iff.mp entry⟩, e, rfl, rfl⟩
  have seeding : (∃ s, w.seeding = some s ∧ (s.addr, s.addr + s.len) = r) ↔
      ∃ s, w.seeding = some s ∧ r = (s.addr, s.addr + s.len) := by
    simp only [eq_comm]
  simp [Watch.windows, ← armed, ← seeding]

/-- The watch unit sees nothing of a write apart from every window. -/
theorem Dev.toWatches_apart {d : Dev} {w : Watch} {a : Nat} {bytes : List Byte}
    (apart : ∀ r ∈ w.windows, Apart a bytes.length r) (k : Nat) (piece : List Byte) :
    d.toWatches w a bytes k piece = d := by
  have ids := Watch.hitIds_apart (w := w) (a := a) (n := bytes.length) (k := k) (len := piece.length)
    fun id e armed => apart _ (Watch.mem_windows.mpr (.inl ⟨id, e, armed, rfl⟩))
  have seed := Watch.seedHit_apart (w := w) (a := a) (n := bytes.length) (k := k) (len := piece.length)
    fun s seeding => apart _ (Watch.mem_windows.mpr (.inr ⟨s, seeding, rfl⟩))
  simp [Dev.toWatches, ids, seed]

/-- The ranges of the plan region lie in it. -/
theorem Dev.mem_regions {d : Dev} {r : Nat × Nat} (h : r ∈ d.regions) :
    (d.mem.planAddr ≤ r.1 ∧ r.1 ≤ r.2 ∧ r.2 ≤ d.mem.planAddr + 65536) ∨
      (∃ p, d.plan? = some p ∧ r = (p.ringBase, p.ringBase + p.slots * p.stride)) ∨ r ∈ d.watch.windows := by
  simp only [Dev.regions, MemPath.planRegion, MemPath.planParts, List.mem_append, List.mem_cons, List.not_mem_nil,
    or_false, Option.mem_toList, Option.map_eq_some_iff] at h
  rcases h with ((rfl | rfl | rfl | rfl) | ⟨p, plan, rfl⟩) | watch
  · exact .inl (by dsimp only; omega)
  · exact .inl (by dsimp only; omega)
  · exact .inl (by dsimp only; omega)
  · exact .inl (by dsimp only; omega)
  · exact .inr (.inl ⟨p, plan, rfl⟩)
  · exact .inr (.inr watch)

/-- A watched range does not end before it begins. -/
theorem Watch.le_of_mem_windows {w : Watch} {r : Nat × Nat} (h : r ∈ w.windows) : r.1 ≤ r.2 := by
  rcases Watch.mem_windows.mp h with ⟨-, e, -, rfl⟩ | ⟨s, -, rfl⟩
  · exact Nat.le_add_right ..
  · exact Nat.le_add_right ..

/-- A write in no region, under no plan, is seen by no unit. -/
theorem Dev.classify_unplanned {d : Dev} {a : Nat} {bytes : List Byte} (unplanned : d.plan? = none)
    (offPlan : ∀ i, i < bytes.length → a + i < d.mem.planAddr ∨ d.mem.planAddr + 65536 ≤ a + i)
    (unwatched : ∀ r ∈ d.watch.windows, Apart a bytes.length r) : d.classify a bytes = d := by
  by_cases some : bytes = []
  · subst some; rfl
  · have positive := List.length_pos_iff.mpr some
    have planApart : a + bytes.length ≤ d.mem.planAddr ∨ d.mem.planAddr + 65536 ≤ a := by
      by_contra inside
      have first := offPlan 0 positive
      have point := offPlan (d.mem.planAddr - a)
      omega
    have uncut : ∀ r ∈ d.regions, Uncut a bytes.length r := by
      intro r hr
      rcases Dev.mem_regions hr with ⟨low, le, high⟩ | ⟨p, plan, -⟩ | watch
      · exact Apart.uncut (by unfold Apart; omega) le
      · rw [unplanned] at plan; cases plan
      · exact (unwatched r watch).uncut (Watch.le_of_mem_windows watch)
    have first : a < d.mem.planAddr ∨ d.mem.planAddr + 65536 ≤ a := by omega
    rw [Dev.classify_single some uncut, Dev.takePiece, Dev.toPlanUnit_apart first, unplanned, Dev.toTracker,
      Dev.toWatches_apart unwatched]

/-! ### Who is granted -/

theorem Dev.mayGrant_iff {d : Dev} : d.mayGrant = true ↔
    d.resetAsserted = false ∧ d.mem.parked = false ∧ d.mem.inflight.length < 64 := by
  simp [Dev.mayGrant, and_assoc]

/-- A decision that is made is the grant to the chosen party. -/
theorem exec_grantDecision_of_choose {d : Dev} {q : List Instr} {x : Party} {n : Nat} (may : d.mayGrant = true)
    (choice : d.choose = some (x, n)) : exec .grantDecision ⟨d, q⟩ = .next ⟨(d.setSteal n).grantTo x, q⟩ := by
  show State.run Dev.grant ⟨d, q⟩ = _
  rw [State.run_of_released _ (Dev.mayGrant_iff.mp may).1, Dev.grant, if_pos may, choice]

/-- Without a choice, or while none may be made, no grant is made. -/
theorem exec_grantDecision_of_none {d : Dev} {q : List Instr} (h : d.mayGrant = false ∨ d.choose = none) :
    exec .grantDecision ⟨d, q⟩ = .next ⟨d, q⟩ := by
  show State.run Dev.grant ⟨d, q⟩ = _
  have same : d.grant = d := by
    unfold Dev.grant
    rcases h with h | h
    · simp [h]
    · simp [h]
  rw [State.run_eq, same, ite_self]

section
variable {d : Dev}

/-- The passing request goes first while the steal counter is below 16. -/
theorem Dev.choose_passing {r : PassingReq} (free : d.mem.portHeld = false) (waits : d.mem.transit = some r)
    (h : d.inserted = none ∨ d.mem.steal < 16) :
    d.choose = some (.passing, if d.inserted = none then 0 else d.mem.steal + 1) := by
  rw [Dev.choose, free, waits]
  cases inserted : d.inserted with
  | none => simp
  | some x =>
    rw [inserted] at h
    simp [h.resolve_left (by simp)]

/-- An inserted request goes first without a passing one, or after sixteen of them. -/
theorem Dev.choose_inserted {x : Party} (free : d.mem.portHeld = false)
    (turn : d.mem.transit = none ∨ d.mem.steal = 16) (inserted : d.inserted = some x) :
    d.choose = some (x, 0) := by
  rw [Dev.choose, free, inserted]
  cases waits : d.mem.transit with
  | none => simp
  | some r =>
    rw [waits] at turn
    simp [turn.resolve_left (by simp)]

/-- A held port waits for the write of its MASK-WRITE. -/
theorem Dev.choose_held (held : d.mem.portHeld = true) :
    d.choose = if d.maskWriteWaits then some (.remote, 0) else none := by
  simp [Dev.choose, held]

end

/-! ### What a grant does -/

/-- The grant of a passing write. -/
theorem Dev.grantPassing_write {d : Dev} {ident : Nat} {a : Addr} {bytes : List Byte}
    (waits : d.mem.transit = some ⟨ident, .write a bytes⟩) : d.grantPassing =
      Dev.issueWrite (.passing ident) a bytes { d with mem := { d.mem with transit := none } } := by
  simp [Dev.grantPassing, waits]

/-- Settles O15: the passing request by `choose_passing`, a write that no unit sees by `classify_unplanned`, the held port
by `choose_held`. -/
theorem passingGrantsAndNoGrant : Obligations.PassingGrantsAndNoGrant := by
  refine ⟨fun d q ident a n bytes may free turn => ?_, fun d q => ?_⟩
  · dsimp only
    refine ⟨fun waits => ?_, fun waits unplanned offPlan unwatched => ?_⟩
    · rw [exec_grantDecision_of_choose may (Dev.choose_passing free waits turn)]
      simp only [Dev.grantTo, Dev.grantPassing, Dev.setSteal, waits]
      rfl
    · rw [exec_grantDecision_of_choose may (Dev.choose_passing free waits turn)]
      have noPlan : d.plan? = none := by simp [Dev.plan?, unplanned]
      have quiet (m : MemPath) (same : m.planBase = d.mem.planBase) :
          ({ d with mem := m } : Dev).classify a.toNat bytes = { d with mem := m } := by
        have base : m.planAddr = d.mem.planAddr := by rw [MemPath.planAddr, same, MemPath.planAddr]
        exact Dev.classify_unplanned noPlan (by dsimp only; rw [base]; exact offPlan) unwatched
      have handle (m : MemPath) : ({ d with mem := m } : Dev).writeHandle a.toNat bytes.length = [] := by
        show (match d.plan? with | none => [] | some p => _) = _
        rw [noPlan]
      have grant : (d.setSteal (if d.inserted = none then 0 else d.mem.steal + 1)).grantTo .passing =
          Dev.issueWrite (.passing ident) a bytes _ := Dev.grantPassing_write waits
      rw [grant, Dev.issueWrite, Dev.setSteal, handle]
      refine congrArg (fun e => Host.Outcome.next (State.mk e q)) ?_
      exact quiet _ rfl
  · refine ⟨fun noTransit noInserted => ?_, fun h => ?_, fun held noWrite => ?_, fun a bytes may held waits => ?_⟩
    · refine exec_grantDecision_of_none ?_
      cases held : d.mem.portHeld with
      | false => simp [Dev.choose, held, noTransit, noInserted]
      | true =>
        have noRemote : d.remote.req = none := by
          by_contra some
          have waits := Option.isSome_iff_ne_none.mpr some
          unfold Dev.inserted at noInserted
          split at noInserted
          · cases noInserted
          · cases noInserted
        simp [Dev.choose_held held, Dev.maskWriteWaits, noRemote]
    · refine exec_grantDecision_of_none (.inl (Bool.eq_false_iff.mpr fun may => ?_))
      obtain ⟨-, unparked, few⟩ := Dev.mayGrant_iff.mp may
      rcases h with h | h
      · rw [h] at unparked; cases unparked
      · omega
    · refine exec_grantDecision_of_none (.inr ?_)
      rw [Dev.choose_held held, if_neg]
      unfold Dev.maskWriteWaits
      split
      · simp
      · next r waits =>
        intro mask
        refine noWrite r.op ?_
        rw [waits, ← of_decide_eq_true mask]
    · have chosen : d.choose = some (.remote, 0) := by
        rw [Dev.choose_held held, if_pos (by simp [Dev.maskWriteWaits, waits])]
      refine ⟨_, exec_grantDecision_of_choose may chosen, ?_⟩
      simp [Dev.grantTo, Dev.grantRemote, Dev.setSteal, waits, Dev.holdPort, Dev.issueWrite, Dev.issue, MemPath.issue]

/-! ### The inserted requests by rank -/

section
variable {d : Dev}

theorem Dev.inserted_live (waits : d.live.fetcher.req.isSome = true) : d.inserted = some .live := by
  simp [Dev.inserted, waits]

theorem Dev.inserted_remote (noLive : d.live.fetcher.req = none) (waits : d.remote.req.isSome = true) :
    d.inserted = some .remote := by
  simp [Dev.inserted, noLive, waits]

theorem Dev.inserted_rank3 {x : Party} (noLive : d.live.fetcher.req = none) (noRemote : d.remote.req = none)
    (waits : d.rank3 = some x) : d.inserted = some x := by
  simp [Dev.inserted, noLive, noRemote, waits]

theorem Dev.inserted_replay (noLive : d.live.fetcher.req = none) (noRemote : d.remote.req = none)
    (noRank3 : d.rank3 = none) (waits : d.replay.fetcher.req.isSome = true) : d.inserted = some .replay := by
  simp [Dev.inserted, noLive, noRemote, noRank3, waits]

theorem Drain.waits_iff {x : Drain} : x.waits = true ↔ ∃ p n, x = .presented p n := by
  cases x <;> simp [Drain.waits]

/-- Of the two at rank 3 the report writer is taken alone, or when the return feed was granted last. -/
theorem Dev.rank3_report {w : ReportWrite} (waits : d.report.presented = some w)
    (turn : (∀ p n, d.feed.drain ≠ .presented p n) ∨ d.mem.lastRank3 = .feed) : d.rank3 = some .report := by
  rcases turn with alone | last
  · have noDrain : d.feed.drain.waits = false :=
      Bool.eq_false_iff.mpr fun h => by
        obtain ⟨p, n, drain⟩ := Drain.waits_iff.mp h
        exact alone p n drain
    simp [Dev.rank3, waits, noDrain]
  · unfold Dev.rank3
    cases d.feed.drain.waits with
    | false => simp [waits]
    | true => simp [waits, last]

/-- Of the two at rank 3 the return feed is taken alone, or when the report writer was granted last. -/
theorem Dev.rank3_feed {p n : Nat} (waits : d.feed.drain = .presented p n)
    (turn : d.report.presented = none ∨ d.mem.lastRank3 = .report) : d.rank3 = some .feed := by
  have drain : d.feed.drain.waits = true := Drain.waits_iff.mpr ⟨p, n, waits⟩
  rcases turn with alone | last
  · simp [Dev.rank3, drain, alone]
  · unfold Dev.rank3
    cases d.report.presented with
    | none => simp [drain]
    | some w => simp [drain, last]

theorem Dev.rank3_none (noReport : d.report.presented = none) (noDrain : ∀ p n, d.feed.drain ≠ .presented p n) :
    d.rank3 = none := by
  have quiet : d.feed.drain.waits = false :=
    Bool.eq_false_iff.mpr fun h => by
      obtain ⟨p, n, drain⟩ := Drain.waits_iff.mp h
      exact noDrain p n drain
  simp [Dev.rank3, noReport, quiet]

end

/-- The grant of an inserted request clears the steal counter. -/
theorem exec_grantDecision_of_inserted {d : Dev} {q : List Instr} {x : Party} (may : d.mayGrant = true)
    (free : d.mem.portHeld = false) (turn : d.mem.transit = none ∨ d.mem.steal = 16) (inserted : d.inserted = some x) :
    exec .grantDecision ⟨d, q⟩ = .next ⟨(d.setSteal 0).grantTo x, q⟩ :=
  exec_grantDecision_of_choose may (Dev.choose_inserted free turn inserted)

/-! ### The next write of the report writer -/

section
variable {r : Report}

/-- The report writer at the grant of its write, before it looks for the next. -/
def Report.idle (r : Report) : Report := { r with presented := none }

theorem Report.idle_present_wanted (wanted : r.producerWanted = true) :
    r.idle.present = { r with presented := some .producerWord, producerWanted := false } := by
  simp [Report.present, Report.idle, wanted]

theorem Report.idle_present_first {w : StatusRecord} (unwanted : r.producerWanted = false)
    (writing : r.writing = some w) (left : r.halvesLeft = 2) :
    r.idle.present = { r with presented := some .firstHalf, halvesLeft := 1 } := by
  simp [Report.present, Report.idle, unwanted, writing, left]

theorem Report.idle_present_second {w : StatusRecord} (unwanted : r.producerWanted = false)
    (writing : r.writing = some w) (left : r.halvesLeft = 1) :
    r.idle.present = { r with presented := some .secondHalf, halvesLeft := 0 } := by
  simp [Report.present, Report.idle, unwanted, writing, left]

theorem Report.idle_present_idle (unwanted : r.producerWanted = false) (noRecord : r.writing = none) :
    r.idle.present = r.idle := by
  simp [Report.present, Report.idle, unwanted, noRecord]

end

/-- The grant of the report writer's request: the write is issued, and the writer looks for the next. -/
theorem Dev.grantReport_of_presented {d : Dev} {w : ReportWrite} (presented : d.report.presented = some w) :
    d.grantReport = Dev.afterReportGrant w { d.issue .report (.write (BitVec.ofNat 34 (d.reportWrite w).1)
      (d.reportWrite w).2) [] with
        report := { d.report with presented := none }
        mem := { d.mem.issue .report (.write (BitVec.ofNat 34 (d.reportWrite w).1) (d.reportWrite w).2) [] with
          lastRank3 := .report } } := by
  simp only [Dev.grantReport, presented, Dev.issue]

/-- Settles O16: who is granted by `Dev.inserted_live` and its siblings, what the report writer does next by
`Report.idle_present_wanted` and its siblings. -/
theorem grantOfInsertedRequests : Obligations.GrantOfInsertedRequests := by
  intro d q i r a n p may free turn
  have grant {x : Party} := @exec_grantDecision_of_inserted d q x may free turn
  intro put written reports wanted
  have reportGrant {w : ReportWrite} (h : reports) (presented : d.report.presented = some w) {off : Nat}
      {bytes : List Byte} (word : d.reportWrite w = (d.mem.planAddr + off, bytes)) : exec .grantDecision ⟨d, q⟩ =
        .next ⟨Dev.afterReportGrant w
          { d with mem := written off bytes, report := { d.report with presented := none } }, q⟩ := by
    obtain ⟨noLive, noRemote, next⟩ := h
    rw [grant (Dev.inserted_rank3 noLive noRemote (Dev.rank3_report presented next)), Dev.grantTo,
      Dev.grantReport_of_presented (d := d.setSteal 0) presented,
      show (d.setSteal 0).reportWrite w = (d.mem.planAddr + off, bytes) from word]
    rfl
  have withReport {m : MemPath} {r r' : Report} (h : r = r') : Host.Outcome.next (φ := Fault) (ρ := Refusal)
      (State.mk { d with mem := m, report := r } q) = .next ⟨{ d with mem := m, report := r' }, q⟩ := by rw [h]
  refine ⟨fun waits => ?_, fun use noLive kind waits => ?_, fun kind tag id w k mode noLive waits executing => ?_,
    fun noLive noRemote waits next => ?_, fun v h presented producer unwanted noRecord => ?_,
    fun v record h presented producer unwanted writing left => ?_, fun record h presented writing left => ?_,
    fun record h presented writing notDue => ?_, fun record h presented writing due => ?_,
    fun noLive noRemote noReport noDrain waits => ?_⟩
  · rw [grant (Dev.inserted_live (by rw [waits]; rfl))]
    simp only [Dev.grantTo, Dev.grantFetch, Dev.setSteal, Dev.fetcher, waits]
    rfl
  · rw [grant (Dev.inserted_remote noLive (by rw [waits]; rfl))]
    simp only [Dev.grantTo, Dev.grantRemote, Dev.setSteal, waits]
    rcases kind with rfl | rfl
    · simp only [put, Dev.issue, MemPath.issue, free]
      rfl
    · rfl
  · rw [grant (Dev.inserted_remote noLive (by rw [waits]; rfl))]
    simp only [Dev.grantTo, Dev.grantRemote, Dev.setSteal, waits, Dev.startSeeding, Dev.issue, executing]
    rfl
  · rw [grant (Dev.inserted_rank3 noLive noRemote (Dev.rank3_feed waits next))]
    simp only [Dev.grantTo, Dev.grantFeed, Dev.setSteal, waits]
    rfl
  · rw [reportGrant h presented (off := 0x2200) (bytes := leBytes 8 v) (by simp [Dev.reportWrite, producer])]
    exact withReport (Report.idle_present_idle unwanted noRecord)
  · rw [reportGrant h presented (off := 0x2200) (bytes := leBytes 8 v) (by simp [Dev.reportWrite, producer])]
    refine withReport (r := d.report.idle.present) ?_
    rcases left with left | left
    · rw [Report.idle_present_second unwanted writing left]
      simp [left]
    · rw [Report.idle_present_first unwanted writing left]
      simp [left]
  · rw [reportGrant h presented (off := 0x2000) (bytes := record.half false) (by simp [Dev.reportWrite, writing])]
    refine withReport (r := d.report.idle.present) ?_
    cases isWanted : d.report.producerWanted with
    | true => rw [Report.idle_present_wanted isWanted]; simp [wanted, isWanted, left]
    | false => rw [Report.idle_present_second isWanted writing left]; simp [wanted, isWanted]
  · rw [reportGrant h presented (off := 0x2100) (bytes := record.half true) (by simp [Dev.reportWrite, writing])]
    simp only [Dev.afterReportGrant, notDue, Bool.false_eq_true, if_false]
    refine withReport (r := Report.present (Report.idle { d.report with writing := none, recordDue := false })) ?_
    cases isWanted : d.report.producerWanted with
    | true => exact Eq.trans (Report.idle_present_wanted isWanted) (by simp [wanted, isWanted])
    | false => exact Eq.trans (Report.idle_present_idle isWanted rfl) (by simp [wanted, isWanted, Report.idle])
  · rw [reportGrant h presented (off := 0x2100) (bytes := record.half true) (by simp [Dev.reportWrite, writing])]
    simp only [Dev.afterReportGrant, due, if_true, Dev.startRecord]
    refine withReport (r := Report.present (Report.idle { d.report with
      recordNumber := d.report.recordNumber + 1
      writing := some (d.snapshot (d.report.recordNumber + 1))
      halvesLeft := 2
      recordDue := false })) ?_
    cases isWanted : d.report.producerWanted with
    | true => exact Eq.trans (Report.idle_present_wanted isWanted) (by simp [wanted, isWanted])
    | false => exact Eq.trans (Report.idle_present_first isWanted rfl rfl) (by simp [wanted, isWanted])
  · rw [grant (Dev.inserted_replay noLive noRemote (Dev.rank3_none noReport noDrain) (by rw [waits]; rfl))]
    simp only [Dev.grantTo, Dev.grantFetch, Dev.setSteal, Dev.fetcher, waits]
    rfl

end Sys2Proof.Machine
end

section
/-! SUPPORT. The plan unit's pieces (section 2.1, section 2.4): the shadow, the live words, and the words they hold
(O20, O22, O23, O24). -/

namespace Sys2Proof.Machine

/-! ### Bytes of a number -/

theorem leBytes_take {n m : Nat} (le : n ≤ m) (v : Nat) : (leBytes m v).take n = leBytes n v := by
  induction n generalizing m v with
  | zero => rfl
  | succ n ih =>
    obtain ⟨m, rfl⟩ := Nat.exists_eq_add_of_lt (Nat.lt_of_succ_le le)
    rw [show n + m + 1 = (n + m) + 1 from rfl, leBytes, List.take_succ_cons, ih (Nat.le_add_right n m), leBytes]

theorem leNat_lt (bs : List Byte) : leNat bs < 256 ^ bs.length := by
  induction bs with
  | nil => simp [leNat]
  | cons b bs ih =>
    have small := b.isLt
    rw [leNat, List.length_cons, Nat.pow_succ]
    omega

/-- The bytes of the number that bytes hold. -/
theorem leBytes_leNat (bs : List Byte) : leBytes bs.length (leNat bs) = bs := by
  induction bs with
  | nil => rfl
  | cons b bs ih =>
    have small := b.isLt
    have low : BitVec.ofNat 8 (b.toNat + 256 * leNat bs) = b := by
      apply BitVec.eq_of_toNat_eq
      rw [BitVec.toNat_ofNat]
      omega
    have high : (b.toNat + 256 * leNat bs) / 256 = leNat bs := by omega
    rw [List.length_cons, leNat, leBytes, low, high, ih]

/-! ### Buffers -/

namespace Memory

/-- A piece that begins behind the window changes nothing. -/
theorem writeIn_behind {lo hi : Nat} (m : Memory) {a : Nat} (x : List Byte) (h : hi ≤ a) : writeIn lo hi m a x = m := by
  induction x generalizing m a with
  | nil => rfl
  | cons b bs ih =>
    rw [writeIn, if_neg (by omega)]
    exact ih m (by omega)

@[simp] theorem length_readBytes (m : Memory) (a n : Nat) : (m.readBytes a n).length = n := by simp [readBytes]

/-- The bytes just put, read back. -/
theorem readBytes_writeIn {m : Memory} {lo hi a : Nat} {x : List Byte} {n : Nat} (wf : m.wf = true) (low : lo ≤ a)
    (high : a + x.length ≤ hi) (le : n ≤ x.length) : (writeIn lo hi m a x).readBytes a n = x.take n := by
  refine List.ext_getElem (by simp [le]) fun i below _ => ?_
  rw [length_readBytes] at below
  have inside : (lo ≤ a + i ∧ a + i < hi) ∧ a ≤ a + i ∧ a + i < a + x.length := by omega
  have at_ : i < x.length := by omega
  simp [readBytes, read_writeIn lo hi x m a _ wf, inside, at_]

/-- A number just put, read back. -/
theorem readNat_writeIn {m : Memory} {lo hi a v n k : Nat} (wf : m.wf = true) (low : lo ≤ a) (high : a + k ≤ hi)
    (le : n ≤ k) : (writeIn lo hi m a (leBytes k v)).readNat a n = v % 256 ^ n := by
  rw [readNat, readBytes_writeIn wf low (by rwa [length_leBytes]) (by rwa [length_leBytes]), leBytes_take le,
    leNat_leBytes]

/-- Bytes put back where they were read change nothing. -/
theorem writeIn_readBytes {m : Memory} (wf : m.wf = true) (lo hi a n : Nat) :
    writeIn lo hi m a (m.readBytes a n) = m := by
  refine ext_read (wf_writeIn lo hi _ m a wf) wf fun c => ?_
  rw [read_writeIn lo hi _ m a c wf, length_readBytes]
  split
  · next inside =>
    have at_ : c - a < n := by omega
    have place : a + (c - a) = c := by omega
    simp [readBytes, at_, place]
  · rfl

/-- A word read from a buffer is itself as a machine word. -/
theorem toNat_readNat4 (m : Memory) (a : Nat) : (BitVec.ofNat 32 (m.readNat a 4)).toNat = m.readNat a 4 := by
  rw [BitVec.toNat_ofNat, Nat.mod_eq_of_lt (by simpa [readNat] using leNat_lt (m.readBytes a 4))]

theorem toNat_readNat8 (m : Memory) (a : Nat) : (BitVec.ofNat 64 (m.readNat a 8)).toNat = m.readNat a 8 := by
  rw [BitVec.toNat_ofNat, Nat.mod_eq_of_lt (by simpa [readNat] using leNat_lt (m.readBytes a 8))]

/-- A word put back where it was read changes nothing. -/
theorem writeIn_readNat {m : Memory} (wf : m.wf = true) (lo hi a n : Nat) :
    writeIn lo hi m a (leBytes n (m.readNat a n)) = m := by
  have bytes : leBytes n (m.readNat a n) = m.readBytes a n := by
    simpa [readNat] using leBytes_leNat (m.readBytes a n)
  rw [bytes, writeIn_readBytes wf]

end Memory

/-! ### Pieces of the plan region -/

theorem covers_iff {off n point : Nat} : covers off n point = true ↔ off ≤ point ∧ point < off + n := by
  simp [covers]

namespace Dev
variable {d : Dev} {off : Nat} {bytes : List Byte}

theorem shadowBytes_behind (h : 0x1000 ≤ off) : d.shadowBytes off bytes = d := by
  rw [shadowBytes, Memory.writeIn_behind _ _ h]

theorem liveBytes_before (h : off + bytes.length ≤ 0x1000) : d.liveBytes off bytes = d := by
  rw [liveBytes, Memory.writeIn_before _ _ _ _ _ h, Memory.writeIn_before _ _ _ _ _ (by omega)]

theorem liveBytes_behind (h : 0x1010 ≤ off) : d.liveBytes off bytes = d := by
  rw [liveBytes, Memory.writeIn_behind _ _ h, Memory.writeIn_behind _ _ (by omega)]

theorem commitPart_behind (h : 0x1000 ≤ off) : d.commitPart off bytes = d := by
  have uncovered : ¬covers off bytes.length 0x0FFC = true := by rw [covers_iff]; omega
  rw [commitPart, if_neg uncovered, shadowBytes_behind h]

theorem ackPart_before (h : off + bytes.length ≤ 0x1000) : d.ackPart off bytes = d := by
  have uncovered : ¬covers off bytes.length 0x1000 = true := by rw [covers_iff]; omega
  rw [ackPart, if_neg uncovered, liveBytes_before h]

theorem consumedPart_uncovered (h : ¬(off ≤ 0x1008 ∧ 0x1008 < off + bytes.length)) : d.consumedPart off bytes = d := by
  rw [consumedPart, if_neg (by rwa [covers_iff])]

/-- A piece of the staging area. -/
theorem planPiece_staged (h : off + bytes.length ≤ 0x1000) : d.planPiece off bytes = d.commitPart off bytes := by
  rw [planPiece_eq, ackPart_before h, consumedPart_uncovered (by omega)]

/-- A piece of the live words. -/
theorem planPiece_live (h : 0x1000 ≤ off) : d.planPiece off bytes = (d.ackPart off bytes).consumedPart off bytes := by
  rw [planPiece_eq, commitPart_behind h]

/-- A piece across the end of the staging area is its two parts, one after the other. -/
theorem planPiece_across {x y : List Byte} (below : off < 0x1000) (end_ : off + x.length = 0x1000) (more : y ≠ []) :
    d.planPiece off (x ++ y) = (d.planPiece off x).planPiece 0x1000 y := by
  have positive := List.length_pos_iff.mpr more
  have shadow : d.shadowBytes off (x ++ y) = d.shadowBytes off x := by
    simp only [shadowBytes, Memory.writeIn_append, end_, Memory.writeIn_behind _ _ (Nat.le_refl 0x1000)]
  have live (e : Dev) : e.liveBytes off (x ++ y) = e.liveBytes 0x1000 y := by
    simp only [liveBytes, Memory.writeIn_append, end_, Memory.writeIn_before _ _ _ _ _ end_.le,
      Memory.writeIn_before 0x1008 0x1010 _ off x (by omega)]
  have point (k : Nat) (lt : k < 0x1000) : covers off (x ++ y).length k = covers off x.length k := by
    rw [Bool.eq_iff_iff, covers_iff, covers_iff, List.length_append]
    omega
  have point' (k : Nat) (le : 0x1000 ≤ k) : covers off (x ++ y).length k = covers 0x1000 y.length k := by
    rw [Bool.eq_iff_iff, covers_iff, covers_iff, List.length_append]
    omega
  have commit : d.commitPart off (x ++ y) = d.commitPart off x := by
    rw [commitPart, shadow, point _ (by omega), commitPart]
  have ack (e : Dev) : e.ackPart off (x ++ y) = e.ackPart 0x1000 y := by
    rw [ackPart, live, point' _ (Nat.le_refl _), ackPart]
  have consumed (e : Dev) : e.consumedPart off (x ++ y) = e.consumedPart 0x1000 y := by
    rw [consumedPart, point' _ (by omega), consumedPart]
  rw [planPiece_staged end_.le, planPiece_live (Nat.le_refl _), planPiece_eq, commit, ack, consumed]

/-- The block with another staging shadow. -/
def withShadow (m : Memory) (d : Dev) : Dev := { d with plan := { d.plan with shadow := m } }

/-- The block with another live-word copy. -/
def withLive (m : Memory) (d : Dev) : Dev := { d with plan := { d.plan with live := m } }

/-- A COMMIT is the commit of the shadow with the word in it. -/
theorem planPiece_commit (word : BitVec 32) : d.planPiece 0x0FFC (leBytes 4 word.toNat) =
    (d.withShadow (Memory.writeIn 0 0x1000 d.plan.shadow 0x0FFC (leBytes 4 word.toNat))).takeCommit := by
  rw [planPiece_staged (by rw [length_leBytes]), commitPart, if_pos (by rw [covers_iff, length_leBytes]; omega)]
  rfl

theorem liveBytes_ack (v : Nat) : d.liveBytes 0x1000 (leBytes 4 v) =
    d.withLive (Memory.writeIn 0x1000 0x1004 d.plan.live 0x1000 (leBytes 4 v)) := by
  rw [liveBytes, Memory.writeIn_before 0x1008 _ _ _ _ (by rw [length_leBytes]; omega)]
  rfl

theorem liveBytes_consumed (v : Nat) : d.liveBytes 0x1008 (leBytes 8 v) =
    d.withLive (Memory.writeIn 0x1008 0x1010 d.plan.live 0x1008 (leBytes 8 v)) := by
  rw [liveBytes, Memory.writeIn_behind (hi := 0x1004) _ _ (by omega)]
  rfl

/-- An ATTENTION-ACK word joins the live-word copy, and its causes are acknowledged. -/
theorem planPiece_ack (wf : d.plan.live.wf = true) (v : BitVec 32) : d.planPiece 0x1000 (leBytes 4 v.toNat) =
    (d.withLive (Memory.writeIn 0x1000 0x1004 d.plan.live 0x1000 (leBytes 4 v.toNat))).acknowledge v.toNat := by
  have value : (d.withLive (Memory.writeIn 0x1000 0x1004 d.plan.live 0x1000 (leBytes 4 v.toNat))).plan.live.readNat
      0x1000 4 = v.toNat := by
    refine (Memory.readNat_writeIn wf (Nat.le_refl _) (Nat.le_refl (0x1000 + 4)) (Nat.le_refl 4)).trans ?_
    exact Nat.mod_eq_of_lt v.isLt
  rw [planPiece_live (Nat.le_refl _), consumedPart_uncovered (by rw [length_leBytes]; omega), ackPart, liveBytes_ack,
    if_pos (by rw [covers_iff, length_leBytes]; omega), value]

/-- A RETURN-CONSUMED word joins the live-word copy, and its value is judged. -/
theorem planPiece_consumed (wf : d.plan.live.wf = true) (v : BitVec 64) : d.planPiece 0x1008 (leBytes 8 v.toNat) =
    (d.withLive (Memory.writeIn 0x1008 0x1010 d.plan.live 0x1008 (leBytes 8 v.toNat))).offerConsumer v.toNat := by
  have value : (d.withLive (Memory.writeIn 0x1008 0x1010 d.plan.live 0x1008 (leBytes 8 v.toNat))).plan.live.readNat
      0x1008 8 = v.toNat := by
    refine (Memory.readNat_writeIn wf (Nat.le_refl _) (Nat.le_refl (0x1008 + 8)) (Nat.le_refl 8)).trans ?_
    exact Nat.mod_eq_of_lt v.isLt
  rw [planPiece_live (by omega), ackPart, liveBytes_consumed, if_neg (by rw [covers_iff]; omega), consumedPart,
    if_pos (by rw [covers_iff, length_leBytes]; omega), value]

end Dev

/-! ### The commands -/

section
variable {d : Dev} {q : List Instr} (released : d.resetAsserted = false)
include released

theorem exec_stagingWrite (off : BitVec 16) (bytes : List Byte) :
    exec (.stagingWrite off bytes) ⟨d, q⟩ = .next ⟨d.planPiece off.toNat bytes, q⟩ :=
  State.run_of_released _ released

theorem exec_commit (word : BitVec 32) : exec (.commit word) ⟨d, q⟩ = .next
    ⟨(d.withShadow (Memory.writeIn 0 0x1000 d.plan.shadow 0x0FFC (leBytes 4 word.toNat))).takeCommit, q⟩ := by
  rw [← Dev.planPiece_commit]
  exact State.run_of_released _ released

theorem exec_attentionAck (wf : d.plan.live.wf = true) (v : BitVec 32) : exec (.attentionAck v) ⟨d, q⟩ = .next
    ⟨(d.withLive (Memory.writeIn 0x1000 0x1004 d.plan.live 0x1000 (leBytes 4 v.toNat))).acknowledge v.toNat, q⟩ := by
  rw [← Dev.planPiece_ack wf]
  exact State.run_of_released _ released

theorem exec_returnConsumed (wf : d.plan.live.wf = true) (v : BitVec 64) : exec (.returnConsumed v) ⟨d, q⟩ = .next
    ⟨(d.withLive (Memory.writeIn 0x1008 0x1010 d.plan.live 0x1008 (leBytes 8 v.toNat))).offerConsumer v.toNat, q⟩ := by
  rw [← Dev.planPiece_consumed wf]
  exact State.run_of_released _ released

/-- The COMMIT of the word that the shadow holds. -/
theorem exec_commit_again (wf : d.plan.shadow.wf = true) :
    exec (.commit (BitVec.ofNat 32 (d.plan.shadow.readNat 0x0FFC 4))) ⟨d, q⟩ = .next ⟨d.takeCommit, q⟩ := by
  rw [exec_commit released, Memory.toNat_readNat4, Memory.writeIn_readNat wf]
  rfl

/-- The ATTENTION-ACK of the word that the live-word copy holds. -/
theorem exec_attentionAck_again (wf : d.plan.live.wf = true) :
    exec (.attentionAck (BitVec.ofNat 32 (d.plan.live.readNat 0x1000 4))) ⟨d, q⟩ =
      .next ⟨d.acknowledge (d.plan.live.readNat 0x1000 4), q⟩ := by
  rw [exec_attentionAck released wf, Memory.toNat_readNat4,
    Memory.writeIn_readNat wf]
  rfl

/-- The RETURN-CONSUMED of the word that the live-word copy holds. -/
theorem exec_returnConsumed_again (wf : d.plan.live.wf = true) :
    exec (.returnConsumed (BitVec.ofNat 64 (d.plan.live.readNat 0x1008 8))) ⟨d, q⟩ =
      .next ⟨d.offerConsumer (d.plan.live.readNat 0x1008 8), q⟩ := by
  rw [exec_returnConsumed released wf, Memory.toNat_readNat8,
    Memory.writeIn_readNat wf]
  rfl

end

/-- Settles O20: a staged piece is its commit part, a live one its acknowledgement and its consumer value; a piece across
the end is both. -/
theorem stagingWriteFillsShadow : Obligations.StagingWriteFillsShadow := by
  intro d q off bytes released run stop then_
  have ran : run = .next ⟨d.planPiece off.toNat bytes, q⟩ := exec_stagingWrite released off bytes
  have kept (k : Nat) (bs : List Byte) : (d.planPiece k bs).resetAsserted = false := by simp [released]
  refine ⟨fun wf below => ?_, fun below above => ?_, fun wf low => ?_, fun beyond => ?_, fun word end_ => ?_,
    fun v => rfl, fun v => rfl⟩
  · have wf' := Memory.wf_writeIn 0 0x1000 bytes _ off.toNat wf
    refine ⟨_, wf', fun a => ?_, fun uncovered => ?_, fun low high => ?_⟩
    · rw [Memory.read_writeIn 0 0x1000 bytes _ off.toNat a wf]
      congr 1
      rw [eq_iff_iff]
      omega
    · rw [ran, Dev.planPiece_staged below, Dev.commitPart, if_neg (by rw [covers_iff]; omega)]
      rfl
    · rw [ran, Dev.planPiece_staged below, Dev.commitPart, if_pos (covers_iff.mpr ⟨low, high⟩)]
      exact (exec_commit_again (d := d.shadowBytes off.toNat bytes) released wf').symm
  · obtain ⟨x, y, split, length⟩ : ∃ x y : List Byte, bytes = x ++ y ∧ x.length = 0x1000 - off.toNat :=
      ⟨_, _, (List.take_append_drop (0x1000 - off.toNat) bytes).symm, by rw [List.length_take]; omega⟩
    have more : y ≠ [] := by
      rintro rfl
      simp only [stop, split, List.append_nil] at above
      omega
    rw [ran, split, ← length, List.take_left, List.drop_left, exec_stagingWrite released,
      Dev.planPiece_across below (by omega) more]
    exact (exec_stagingWrite (kept _ _) 0x1000 y).symm
  · have wf₁ := Memory.wf_writeIn 0x1000 0x1004 bytes _ off.toNat wf
    have wf' := Memory.wf_writeIn 0x1008 0x1010 bytes _ off.toNat wf₁
    have first : covers off.toNat bytes.length 0x1000 = true ↔ off.toNat = 0x1000 ∧ bytes ≠ [] := by
      rw [covers_iff, ← List.length_pos_iff]
      omega
    have second : covers off.toNat bytes.length 0x1008 = true ↔ off.toNat ≤ 0x1008 ∧ 0x1008 < stop := covers_iff
    have ack := exec_attentionAck_again (d := d.liveBytes off.toNat bytes) (q := q) released wf'
    refine ⟨_, wf', fun a => ?_, fun no₁ no₂ => ?_, fun yes₁ no₂ => ?_, fun no₁ yes₂ => ?_, fun yes₁ yes₂ => ?_⟩
    · rw [Memory.read_writeIn 0x1008 0x1010 bytes _ off.toNat a wf₁,
        Memory.read_writeIn 0x1000 0x1004 bytes _ off.toNat a wf]
      split
      · next h => rw [if_pos (by omega)]
      · next h =>
        congr 1
        rw [eq_iff_iff]
        omega
    · rw [ran, Dev.planPiece_live low, Dev.ackPart, if_neg (by rwa [first]), Dev.consumedPart, if_neg (by rwa [second])]
      rfl
    · rw [ran, Dev.planPiece_live low, Dev.ackPart, if_pos (first.mpr yes₁), Dev.consumedPart, if_neg (by rwa [second])]
      exact ack.symm
    · rw [ran, Dev.planPiece_live low, Dev.ackPart, if_neg (by rwa [first]), Dev.consumedPart, if_pos (second.mpr yes₂)]
      exact (exec_returnConsumed_again (d := d.liveBytes off.toNat bytes) released wf').symm
    · rw [ran, Dev.planPiece_live low, Dev.ackPart, if_pos (first.mpr yes₁), Dev.consumedPart, if_pos (second.mpr yes₂)]
      refine Eq.trans ?_ (congrArg (fun x => then_ x _) ack).symm
      exact (exec_returnConsumed_again (d := (d.liveBytes off.toNat bytes).acknowledge _) released wf').symm
  · rw [ran, Dev.planPiece_live (by omega), Dev.ackPart, Dev.liveBytes_behind beyond, if_neg (by rw [covers_iff]; omega),
      Dev.consumedPart_uncovered (by omega)]
  · have bytesOnly : d.planPiece off.toNat bytes = d.shadowBytes off.toNat bytes := by
      rw [Dev.planPiece_staged (by omega), Dev.commitPart, if_neg (by rw [covers_iff]; omega)]
    rw [exec_stagingWrite released, ran, bytesOnly, Dev.planPiece_staged (by simp; omega), Dev.commitPart,
      if_pos (by rw [covers_iff]; simp; omega), Dev.shadowBytes, Memory.writeIn_append,
      show off.toNat + bytes.length = 0x0FFC from end_]
    exact (exec_commit (d := d.shadowBytes off.toNat bytes) released word).symm

end Sys2Proof.Machine
end

section
/-! SUPPORT. Commits, live words and report writes (section 2.1 to section 2.6): O22, O23, O24, O25. -/

namespace Sys2Proof.Machine

/-! ### Commits -/

/-- The commit sequence is the low half of the commit word just put (R19). -/
theorem Memory.commitSeq_writeIn {m : Memory} (wf : m.wf = true) (word : BitVec 32) :
    (Memory.writeIn 0 0x1000 m 0x0FFC (leBytes 4 word.toNat)).commitSeq = word.truncate 16 := by
  rw [Memory.commitSeq, Memory.readNat_writeIn wf (Nat.zero_le _) (Nat.le_refl (0x0FFC + 4)) (by omega : 2 ≤ 4)]
  apply BitVec.eq_of_toNat_eq
  simp

/-- A commit whose snapshot fails validation is rejected with the first failing group (R20, R24). -/
theorem Dev.takeCommit_of_failure {d : Dev} {reason : Group}
    (h : d.plan.shadow.staged.failure d.mem.planAddr (MemSize.bytes d.mem.memSize) = some reason) :
    d.takeCommit = d.rejectCommit reason d.plan.shadow.commitSeq := by
  rw [Dev.takeCommit, h]

/-- A commit whose snapshot passes validation is accepted (R20, R25). -/
theorem Dev.takeCommit_of_valid {d : Dev}
    (h : d.plan.shadow.staged.failure d.mem.planAddr (MemSize.bytes d.mem.memSize) = none) :
    d.takeCommit = d.acceptCommit d.plan.shadow.staged.toPlan d.plan.shadow.commitSeq := by
  rw [Dev.takeCommit, h]

/-- A cause that was clear, while no record is being written: a record that shows it is started (R33, R34). -/
theorem Dev.setCause_starts {c : Cause} {d : Dev} (clear : d.report.causes.get c = false)
    (free : d.report.writing = none) : d.setCause c =
      Dev.startRecord { d with report := { d.report with causes := d.report.causes.set c } } := by
  simp [Dev.setCause, clear, Dev.recordDue, free]

/-- A cause that was clear, while a record is being written: the next record is due (R33, R34). -/
theorem Dev.setCause_flags {c : Cause} {d : Dev} (clear : d.report.causes.get c = false)
    (busy : d.report.writing ≠ none) : d.setCause c =
      { d with report := { d.report with causes := d.report.causes.set c, recordDue := true } } := by
  obtain ⟨record, writing⟩ := Option.ne_none_iff_exists'.mp busy
  simp [Dev.setCause, clear, Dev.recordDue, writing]

/-- Settles O22: the rejected commit sets the COMMIT cause, whose three cases are those of `setCause`. -/
theorem commitIsRejected : Obligations.CommitIsRejected := by
  intro d q word reason released wf m e fails
  have seq : m.commitSeq = word.truncate 16 := Memory.commitSeq_writeIn wf word
  have ran : exec (.commit word) ⟨d, q⟩ = .next ⟨e.setCause .commit, q⟩ := by
    rw [exec_commit released, Dev.takeCommit_of_failure (d := d.withShadow m) fails, Dev.withShadow, seq]
    rfl
  rw [ran]
  refine ⟨fun set => ?_, fun clear free => ?_, fun clear busy => ?_⟩
  · rw [Dev.setCause_again (show e.report.causes.get .commit = true from set)]
  · refine ⟨_, by rw [Dev.setCause_starts (show e.report.causes.get .commit = false from clear) free]; rfl, ?_⟩
    simp only [Report.present_frame]
    exact ⟨rfl, rfl, rfl⟩
  · rw [Dev.setCause_flags (show e.report.causes.get .commit = false from clear) busy]
    rfl

/-! ### Requests that have ended -/

/-- Every request of the replay reader has ended or is flagged cancelled, and none holds a mark. -/
def ReplayReader.Over (r : ReplayReader) : Prop :=
  (∀ c, r.current = some c → c.marked = false ∧ ∃ st, c.stage = .ending st) ∧ ∀ q ∈ r.queue, q.cancelled = true

theorem ReplayReader.over_allEnded (r : ReplayReader) : r.allEnded.Over := by
  refine ⟨fun c hc => ?_, fun q hq => ?_⟩
  · obtain ⟨c, -, rfl⟩ := Option.map_eq_some_iff.mp hc
    exact ⟨rfl, _, rfl⟩
  · obtain ⟨q, -, rfl⟩ := List.mem_map.mp hq
    rfl

/-- Where all requests are over, offering their entries moves neither the slot table nor the credit. -/
theorem Dev.replayPump_over (n : Nat) {d : Dev} (ended : d.replay.Over) : (d.replayPump n).ring = d.ring ∧
    (d.replayPump n).replay.credit = d.replay.credit ∧ (d.replayPump n).replay.fetcher = d.replay.fetcher := by
  induction n generalizing d with
  | zero => exact ⟨rfl, rfl, rfl⟩
  | succ n ih =>
    obtain ⟨ending, flagged⟩ := ended
    rw [Dev.replayPump]
    cases current : d.replay.current with
    | none =>
      cases queue : d.replay.queue with
      | nil => exact ⟨rfl, rfl, rfl⟩
      | cons r rest =>
        rw [queue] at flagged
        have first : r.cancelled = true := flagged r List.mem_cons_self
        dsimp only
        rw [Dev.startRequest, if_pos first]
        refine ih (d := Dev.setCurrent _ _) ⟨fun c hc => ?_, fun q hq => flagged q (List.mem_cons_of_mem r hq)⟩
        obtain rfl : CurrentReq.endedAtStart r .cancelled = c := Option.some.inj hc
        exact ⟨rfl, _, rfl⟩
    | some c =>
      obtain ⟨unmarked, st, stage⟩ := ending c current
      simp only [stage]
      split
      · have finished : (d.enqueue (c.endEntry st)).finishRequest c = (d.enqueue (c.endEntry st)).setCurrent none := by
          simp [Dev.finishRequest, unmarked]
        rw [finished]
        exact ih (d := Dev.setCurrent _ _) ⟨fun c hc => (by cases hc), flagged⟩
      · exact ⟨rfl, rfl, rfl⟩

/-- Apply, in one equation: the new plan, everything of the old one dropped, the feed's part, and the entries owed. -/
theorem Dev.apply_eq (w : PendingPlan) (d : Dev) : d.apply w = (Dev.feedApply w.plan { d with
    plan := { d.plan with working := some ⟨w.plan, w.seq⟩, pending := none }
    tracker := { d.tracker with ctx0 := none, ctx1 := none, order := [] }
    ring := d.ring.cleared
    live := d.live.dropFrames
    replay := d.replay.allEnded }).replaySettle := by
  have cleared (k : Nat) (f : Slot → Slot) : { d.ring with slots := d.ring.slots.modify k f }.cleared = d.ring.cleared := by
    simp [Ring.cleared, List.map_const']
  unfold Dev.apply
  cases current : d.replay.current with
  | none => simp [Dev.cancelRequest, current, Dev.cancelQueued, Dev.forgetMark, Dev.setCurrent, ReplayReader.allEnded]
  | some c =>
    cases stage : c.stage with
    | ending st =>
      simp [Dev.cancelRequest, current, stage, Dev.cancelQueued, Dev.forgetMark, Dev.setCurrent, ReplayReader.allEnded,
        Stage.cancelled]
    | waitingClose =>
      cases marked : c.marked <;>
      simp [Dev.cancelRequest, current, stage, marked, Dev.cancelQueued, Dev.forgetMark, Dev.setCurrent,
        ReplayReader.allEnded, Stage.cancelled, Fetcher.dropAll_dropAll, Dev.unmark, Dev.updSlot, cleared]
    | sending =>
      cases marked : c.marked <;>
      simp [Dev.cancelRequest, current, stage, marked, Dev.cancelQueued, Dev.forgetMark, Dev.setCurrent,
        ReplayReader.allEnded, Stage.cancelled, Fetcher.dropAll_dropAll, Dev.unmark, Dev.updSlot, cleared]

/-- The return ring of the plan applied is in force. -/
theorem Dev.feedApply_ring (p : Plan) (d : Dev) :
    (d.feedApply p).feed.start = p.retStart ∧ (d.feedApply p).feed.stop = p.retEnd := by
  have examined (f : Feed) : f.examine.start = f.start ∧ f.examine.stop = f.stop := by
    unfold Feed.examine
    split <;> exact ⟨rfl, rfl⟩
  unfold Dev.feedApply
  split
  · next same => simp [examined, same]
  · simp [examined]

/-- What apply leaves of the old plan. -/
theorem Dev.apply_parts (w : PendingPlan) (d : Dev) :
    (d.apply w).plan = { d.plan with working := some ⟨w.plan, w.seq⟩, pending := none } ∧
    (d.apply w).ring = d.ring.cleared ∧
    (d.apply w).tracker = { d.tracker with ctx0 := none, ctx1 := none, order := [] } ∧
    (d.apply w).live = d.live.dropFrames ∧
    (d.apply w).replay.credit = d.replay.credit ∧
    (d.apply w).feed.start = w.plan.retStart ∧ (d.apply w).feed.stop = w.plan.retEnd := by
  let e : Dev := { d with
    plan := { d.plan with working := some ⟨w.plan, w.seq⟩, pending := none }
    tracker := { d.tracker with ctx0 := none, ctx1 := none, order := [] }
    ring := d.ring.cleared
    live := d.live.dropFrames
    replay := d.replay.allEnded }
  have settled : d.apply w = (e.feedApply w.plan).replaySettle := d.apply_eq w
  have ended : (e.feedApply w.plan).replay.Over := by simpa [e] using d.replay.over_allEnded
  obtain ⟨ring, credit, -⟩ := Dev.replayPump_over (2 * (e.feedApply w.plan).replay.queue.length + 3) ended
  obtain ⟨start, stop⟩ := Dev.feedApply_ring w.plan e
  rw [settled]
  refine ⟨by simp [e], ring.trans (by simp [e]), by simp [e], by simp [e], credit.trans (by simp [e]; rfl), ?_, ?_⟩
  · simpa using start
  · simpa using stop

/-- Settles O23: under a plan the new one waits; without one it is applied, as `Dev.apply_eq` says. -/
theorem commitIsAccepted : Obligations.CommitIsAccepted := by
  intro d q word released wf m g p valid
  have seq : m.commitSeq = word.truncate 16 := Memory.commitSeq_writeIn wf word
  have ran : exec (.commit word) ⟨d, q⟩ = .next ⟨(d.withShadow m).acceptCommit g (word.truncate 16), q⟩ := by
    rw [exec_commit released, Dev.takeCommit_of_valid (d := d.withShadow m) valid, Dev.withShadow, seq]
  have clamped : g.clamp = p := rfl
  rw [ran]
  refine ⟨fun planned => ?_, fun unplanned => ?_⟩
  · obtain ⟨w, working⟩ := Option.ne_none_iff_exists'.mp planned
    simp only [Dev.acceptCommit, Dev.withShadow, working]
    rfl
  · let w : PendingPlan := ⟨p, word.truncate 16, d.timing.now⟩
    let x : Dev := { d with
      plan := { d.plan with shadow := m, working := none, last := .accepted (word.truncate 16) g.clampSet }
      timing := { d.timing with nextAnchor := some (d.timing.now + BitVec.ofNat 32 p.period), inGroup := [] } }
    have applied : (d.withShadow m).acceptCommit g (word.truncate 16) = x.apply w := by
      simp only [Dev.acceptCommit, Dev.withShadow, unplanned, Dev.applyFirst, clamped]
      rfl
    obtain ⟨plan, ring, tracker, live, credit, start, stop⟩ := Dev.apply_parts w x
    have frame := Dev.apply_frame w x
    refine ⟨x.apply w, by rw [applied], by rw [plan], by rw [plan], by rw [plan]; rfl, frame.2.2.2.1, ring, tracker,
      start, stop, by rw [live]; rfl, by rw [live]; rfl, credit, ?_⟩
    simp [x]

/-! ### The live words -/

/-- No drain write begins while one is in hand, or without staged bytes (R189). -/
theorem Feed.examine_of_idle {f : Feed} (h : f.fifo = [] ∨ f.drain ≠ .none) : f.examine = f := by
  rw [Feed.examine, if_neg]
  simp only [Bool.and_eq_true, decide_eq_true_eq, Feed.drainLen]
  rintro ⟨⟨free, -⟩, some⟩
  rcases h with empty | busy
  · simp [empty] at some
  · exact busy free

/-- Settles O24: the acknowledged causes bit by bit, the consumer value by the branches of `offerConsumer`. -/
theorem liveWordsAreTaken : Obligations.LiveWordsAreTaken := by
  refine ⟨fun d q v released wf => ?_, fun d q v released wf => ?_⟩
  · rw [exec_attentionAck released wf]
    rfl
  · intro size live inRing behind e
    rw [exec_returnConsumed released wf]
    refine ⟨fun inside near => ⟨?_, fun idle => ?_⟩, fun refused => ?_⟩
    · rw [Dev.offerConsumer, if_pos]
      · rw [Dev.thenDo_drain (d := e) released]
        rfl
      · simp only [Bool.and_eq_true, decide_eq_true_eq]
        exact ⟨inside, near⟩
    · rw [Dev.thenDo_drain (d := e) released, Dev.drainExamine,
        Feed.examine_of_idle (show e.feed.fifo = [] ∨ e.feed.drain ≠ .none from idle)]
    · rw [Dev.offerConsumer, if_neg]
      · rfl
      · simp only [Bool.and_eq_true, decide_eq_true_eq]
        exact refused

/-! ### The report writer -/

/-- A record taken up, with its number (R34). -/
theorem Dev.recordDue_starts {d : Dev} (free : d.report.writing = none) : d.recordDue = d.startRecord := by
  rw [Dev.recordDue, free]

theorem Dev.recordDue_flags {d : Dev} (busy : d.report.writing ≠ none) :
    d.recordDue = { d with report := { d.report with recordDue := true } } := by
  obtain ⟨record, writing⟩ := Option.ne_none_iff_exists'.mp busy
  rw [Dev.recordDue, writing]

/-- UNPLANNED is to have no working plan (R25). -/
theorem Dev.unplanned_iff_working {d : Dev} : d.unplanned = true ↔ d.plan.working = none := by
  rw [Dev.unplanned_iff, PlanUnit.state]
  cases d.plan.working with
  | none => simp
  | some w => cases d.plan.pending <;> simp

theorem Dev.reportIsDue_iff {d : Dev} :
    d.reportIsDue = true ↔ d.plan.working = none ∧ reached d.timing.now d.report.timerDue = true := by
  rw [Dev.reportIsDue, Bool.and_eq_true, Dev.unplanned_iff_working]

/-- The block with another expiry of the report timer. -/
def Dev.withReportTimer (t : HeadTime) (d : Dev) : Dev := { d with report := { d.report with timerDue := t } }

theorem Dev.timedReport_eq (d : Dev) : d.timedReport = (d.withReportTimer (d.report.timerDue + 2097152)).recordDue := rfl

theorem Dev.recordDue_withReportTimer {d : Dev} (busy : d.report.writing ≠ none) (t : HeadTime) :
    (d.withReportTimer t).recordDue = { d with report := { d.report with timerDue := t, recordDue := true } } :=
  Dev.recordDue_flags (d := d.withReportTimer t) busy

/-- The record started when the report timer has expired (R33, R34). -/
theorem Dev.recordDue_withReportTimer_free {d : Dev} (free : d.report.writing = none) (t : HeadTime) : ∃ r,
    (d.withReportTimer t).recordDue = { d with report := r } ∧ r.timerDue = t ∧
    r.recordNumber = d.report.recordNumber + 1 ∧ r.writing = some (d.snapshot r.recordNumber) ∧
    r.recordDue = d.report.recordDue ∧ r.causes = d.report.causes := by
  refine ⟨_, Dev.recordDue_starts (d := d.withReportTimer t) free, ?_⟩
  simp only [Report.present_frame]
  exact ⟨rfl, rfl, rfl, rfl, rfl⟩

theorem exec_reportTimer {d : Dev} (q : List Instr) (released : d.resetAsserted = false) :
    exec .reportTimer ⟨d, q⟩ = .next ⟨if d.reportIsDue then d.timedReport else d, q⟩ :=
  State.run_of_released _ released

/-- Settles O25: the timer by `recordDue`, the error of a report write by `setCause_spec`. -/
theorem reportTimerAndWrites : Obligations.ReportTimerAndWrites := by
  intro d q released
  refine ⟨fun unplanned due free => ?_, fun unplanned due busy => ?_, fun notDue => ?_,
    fun tag r record owner write handle => ?_⟩
  · rw [exec_reportTimer q released, if_pos (Dev.reportIsDue_iff.mpr ⟨unplanned, due⟩), Dev.timedReport_eq]
    obtain ⟨r, started, spec⟩ := Dev.recordDue_withReportTimer_free free (d.report.timerDue + 2097152)
    exact ⟨r, by rw [started], spec⟩
  · rw [exec_reportTimer q released, if_pos (Dev.reportIsDue_iff.mpr ⟨unplanned, due⟩), Dev.timedReport_eq,
      Dev.recordDue_withReportTimer busy]
  · rw [exec_reportTimer q released, if_neg]
    rw [Dev.reportIsDue_iff]
    rintro ⟨unplanned, due⟩
    rcases notDue with planned | early
    · exact planned unplanned
    · rw [early] at due
      cases due
  · have mine : r.owner.isReport = true := by rw [owner]; rfl
    have done : r.fits .done = true := write
    refine ⟨?_, ?_⟩
    · refine (State.runReply_deliver Owner.isReport released record mine done).trans ?_
      rw [Dev.countError_done, owner]
      rfl
    · obtain ⟨rep, set, spec⟩ := Dev.setCause_spec .fault ((d.dropRecord tag).count fun c =>
        { c with memoryErrors := satInc c.memoryErrors })
      refine ⟨rep, ?_, spec⟩
      refine (State.runReply_deliver Owner.isReport (reply := .error) released record mine rfl).trans ?_
      rw [Dev.countError_error handle, owner]
      exact congrArg (fun e => Host.Outcome.next (State.mk e q)) set

end Sys2Proof.Machine
end

section
/-! SUPPORT. The timing generator (chapter 6): timers, references, anchors (O26, O27, O28, O30, O31). -/

namespace Sys2Proof.Machine

/-! ### Head times -/

theorem later_iff {a b : HeadTime} : later a b = true ↔ 1 ≤ (a - b).toNat ∧ (a - b).toNat < 2147483648 := by
  simp [later]

/-- An anchor moved on by m ticks, seen from `now`, which lies x ticks behind it or before it. -/
theorem later_add_iff (now a : HeadTime) (m : Nat) :
    later (a + BitVec.ofNat 32 m) now = true ↔ 1 ≤ (m + (4294967296 - (now - a).toNat)) % 4294967296 ∧
      (m + (4294967296 - (now - a).toNat)) % 4294967296 < 2147483648 := by
  have moved : (a + BitVec.ofNat 32 m - now).toNat = (m + (4294967296 - (now - a).toNat)) % 4294967296 := by
    have ha := a.isLt
    have hn := now.isLt
    simp only [BitVec.toNat_sub, BitVec.toNat_add, BitVec.toNat_ofNat]
    omega
  rw [later_iff, moved]

/-- Settles O28: x ticks behind the present, at most 2^31, the first multiple of T above x is less than 2^31 above it. -/
theorem additionsAreTheLeast : Obligations.AdditionsAreTheLeast := by
  intro now a period low high
  unfold additions
  split
  · next past => exact ⟨by simpa using past, fun j below => absurd below (Nat.not_lt_zero j)⟩
  · next notPast =>
    have unmoved := later_add_iff now a 0
    rw [show a + BitVec.ofNat 32 0 = a by simp] at unmoved
    rw [unmoved] at notPast
    have bound := (now - a).isLt
    have moved := later_add_iff now a
    generalize (now - a).toNat = x at *
    have behind : x ≤ 2147483648 := by omega
    have above : x < (x / period + 1) * period := by
      rw [Nat.mul_comm]
      exact Nat.lt_mul_div_succ x (by omega)
    have near : (x / period + 1) * period ≤ x + period := by
      rw [Nat.succ_mul]
      exact Nat.add_le_add_right (Nat.div_mul_le_self x period) period
    refine ⟨?_, fun j below => ?_⟩
    · rw [moved]
      omega
    · have before : j * period ≤ x :=
        (Nat.mul_le_mul_right period (Nat.lt_succ_iff.mp below)).trans (Nat.div_mul_le_self x period)
      rw [← Bool.not_eq_true, moved]
      omega

/-! ### Timers (O26) -/

/-- An ECHO, HEAD-STATUS or RETURN-DROP entry is admitted while nine entries are free (R154). -/
theorem Dev.admits_of_nine {d : Dev} {e : Entry} (nine : e.threshold = 9) :
    d.admits e = decide (d.downlink.ctrl.length ≤ 55) := by
  rw [Dev.admits, nine, Downlink.free, decide_eq_decide]
  omega

theorem Dev.offer_of_room {d : Dev} {e : Entry} (nine : e.threshold = 9) (room : d.downlink.ctrl.length ≤ 55) :
    d.offer e = d.enqueue e := by
  rw [Dev.offer, Dev.admits_of_nine nine, if_pos (decide_eq_true room)]

theorem Dev.offer_of_full {d : Dev} {e : Entry} (nine : e.threshold = 9) (full : 55 < d.downlink.ctrl.length) :
    d.offer e = d.dropEntry := by
  rw [Dev.offer, Dev.admits_of_nine nine, if_neg (by simpa using full)]

/-- The counters after an outstanding echo was abandoned (R102). -/
def Dev.echoCounters (d : Dev) : Counters :=
  if d.timing.echoOut then { d.counters with abandonedEchoes := satInc d.counters.abandonedEchoes } else d.counters

/-- The block when the next echo is offered, the one after it due at `t` (R102). -/
def Dev.echoReady (t : HeadTime) (d : Dev) : Dev := { d with
  counters := d.echoCounters
  timing := { d.timing with echoOut := false, echoSeq := d.timing.echoSeq + 1, echoDue := t } }

theorem Dev.sendEcho_eq (d : Dev) : d.sendEcho =
    ((d.echoReady (d.timing.echoDue + timerInterval)).offer (.echo (d.timing.echoSeq + 1) 0)).updTiming fun t =>
      { t with echoOut :=
          (d.echoReady (d.timing.echoDue + timerInterval)).admits (.echo (d.timing.echoSeq + 1) 0) } := by
  obtain ⟨k, interval⟩ : ∃ k, k = timerInterval := ⟨_, rfl⟩
  have ready : (d.abandonEcho.updTiming fun t =>
      { t with echoSeq := t.echoSeq + 1, echoDue := t.echoDue + k }) = d.echoReady (d.timing.echoDue + k) := by
    unfold Dev.abandonEcho Dev.echoReady Dev.echoCounters
    cases out : d.timing.echoOut
    · simp [Dev.updTiming, out]
    · rfl
  unfold Dev.sendEcho
  rw [← interval, ready]
  rfl

theorem exec_echoTimer {d : Dev} (q : List Instr) (released : d.resetAsserted = false) :
    exec .echoTimer ⟨d, q⟩ = .next ⟨if d.echoIsDue then d.sendEcho else d, q⟩ :=
  State.run_of_released _ released

theorem exec_headStatusTimer {d : Dev} (q : List Instr) (released : d.resetAsserted = false) :
    exec .headStatusTimer ⟨d, q⟩ = .next ⟨if d.statusIsDue then d.timedStatus else d, q⟩ :=
  State.run_of_released _ released

theorem exec_frameStartEnd {d : Dev} (q : List Instr) (released : d.resetAsserted = false) :
    exec .frameStartEnd ⟨d, q⟩ = .next ⟨d.endFrameStart, q⟩ :=
  State.run_of_released _ released

theorem Dev.statusIsDue_iff {d : Dev} :
    d.statusIsDue = true ↔ d.plan.working = none ∧ reached d.timing.now d.timing.statusDue = true := by
  rw [Dev.statusIsDue, Bool.and_eq_true, Dev.unplanned_iff_working]

/-- The block with another time of the timed HEAD-STATUS. -/
def Dev.withStatusDue (t : HeadTime) (d : Dev) : Dev := { d with timing := { d.timing with statusDue := t } }

/-- The timed HEAD-STATUS while UNPLANNED, with the state as it stands (R118). -/
def Dev.timerEntry (d : Dev) : Entry :=
  .headStatus .timer d.timing.genlock d.timing.lockRun 0 d.timing.now d.timing.nextBase d.timing.delay
    d.timing.delayValid d.timing.phaseError

theorem Dev.timedStatus_eq {d : Dev} (unplanned : d.plan.working = none) : d.timedStatus =
    ((d.withStatusDue (d.timing.statusDue + timerInterval)).offer d.timerEntry).dropReport := by
  have noPlan : d.plan? = none := by simp [Dev.plan?, unplanned]
  have entry (t : HeadTime) : (d.withStatusDue t).headStatus .timer d.timing.now d.timing.nextBase = d.timerEntry := by
    rw [Dev.headStatus, show (d.withStatusDue t).plan? = none from noPlan]
    rfl
  obtain ⟨k, interval⟩ : ∃ k, k = timerInterval := ⟨_, rfl⟩
  unfold Dev.timedStatus
  rw [← interval, ← entry (d.timing.statusDue + k)]
  rfl

theorem Dev.dropReport_none {d : Dev} (noDrops : d.feed.pendingDrop = 0) : d.dropReport = d := by
  simp [Dev.dropReport, noDrops]

theorem Dev.dropReport_of_room {d : Dev} (drops : d.feed.pendingDrop ≠ 0) (room : d.downlink.ctrl.length ≤ 55) :
    d.dropReport = Dev.enqueue (.returnDrop d.feed.pendingDrop d.timing.now)
      { d with feed := { d.feed with pendingDrop := 0 } } := by
  simp only [Dev.dropReport, if_neg drops, Dev.admits_of_nine (e := .returnDrop d.feed.pendingDrop d.timing.now) rfl,
    decide_eq_true room, if_true]

section
variable {d : Dev} (t : HeadTime)

/-- The timed HEAD-STATUS is admitted, and no RETURN-DROP is owed. -/
theorem Dev.status_alone (room : d.downlink.ctrl.length ≤ 55) (noDrops : d.feed.pendingDrop = 0) :
    ((d.withStatusDue t).offer d.timerEntry).dropReport = { d with
      timing := { d.timing with statusDue := t }
      downlink := { d.downlink with ctrl := d.downlink.ctrl ++ [d.timerEntry] } } := by
  rw [Dev.offer_of_room (d := d.withStatusDue t) rfl room,
    Dev.dropReport_none (d := (d.withStatusDue t).enqueue d.timerEntry) noDrops]
  rfl

/-- The timed HEAD-STATUS and the RETURN-DROP behind it are admitted. -/
theorem Dev.status_with_drops (room : d.downlink.ctrl.length ≤ 54) (drops : d.feed.pendingDrop ≠ 0) :
    ((d.withStatusDue t).offer d.timerEntry).dropReport = { d with
      timing := { d.timing with statusDue := t }
      downlink := { d.downlink with
        ctrl := d.downlink.ctrl ++ [d.timerEntry, .returnDrop d.feed.pendingDrop d.timing.now] }
      feed := { d.feed with pendingDrop := 0 } } := by
  rw [Dev.offer_of_room (d := d.withStatusDue t) rfl (room.trans (by omega)),
    Dev.dropReport_of_room (d := (d.withStatusDue t).enqueue d.timerEntry) drops]
  · simp [Dev.enqueue, Dev.withStatusDue]
  · simpa [Dev.enqueue, Dev.withStatusDue] using Nat.succ_le_succ room

/-- The timed HEAD-STATUS is refused. -/
theorem Dev.status_dropped (full : 55 < d.downlink.ctrl.length) (noDrops : d.feed.pendingDrop = 0) :
    ((d.withStatusDue t).offer d.timerEntry).dropReport = { d with
      timing := { d.timing with statusDue := t }
      counters := { d.counters with droppedEntries := satInc d.counters.droppedEntries } } := by
  rw [Dev.offer_of_full (d := d.withStatusDue t) rfl full,
    Dev.dropReport_none (d := (d.withStatusDue t).dropEntry) noDrops]
  rfl

end

/-- Settles O26: the echo and the status by their offers, the line by its time. -/
theorem timersExpire : Obligations.TimersExpire := by
  refine ⟨fun d q released due => ?_, fun d q released unplanned due => ?_, fun d q released => ?_, fun d q => ?_⟩
  · dsimp only
    have ran : exec .echoTimer ⟨d, q⟩ = .next ⟨d.sendEcho, q⟩ := by
      rw [exec_echoTimer q released, if_pos (show d.echoIsDue = true from due)]
    rw [ran, Dev.sendEcho_eq, Dev.admits_of_nine rfl, timerInterval]
    generalize d.timing.echoDue + 2097152 = t
    refine ⟨fun room => ?_, fun full => ?_⟩
    · rw [Dev.offer_of_room (d := d.echoReady t) rfl room, decide_eq_true (show (d.echoReady t).downlink.ctrl.length ≤ 55 from room)]
      rfl
    · rw [Dev.offer_of_full (d := d.echoReady t) rfl full, decide_eq_false (show ¬(d.echoReady t).downlink.ctrl.length ≤ 55 by
        simpa [Dev.echoReady] using full)]
      rfl
  · dsimp only
    have ran : exec .headStatusTimer ⟨d, q⟩ = .next ⟨d.timedStatus, q⟩ := by
      rw [exec_headStatusTimer q released, if_pos (Dev.statusIsDue_iff.mpr ⟨unplanned, due⟩)]
    rw [ran, Dev.timedStatus_eq unplanned, timerInterval]
    exact ⟨fun room noDrops => by rw [Dev.status_alone _ room noDrops, Dev.timerEntry],
      fun room drops => by rw [Dev.status_with_drops _ room drops, Dev.timerEntry],
      fun full noDrops => by rw [Dev.status_dropped _ full noDrops]⟩
  · refine ⟨fun due ends due' => ?_, fun due ends early => ?_⟩
    · rw [exec_frameStartEnd q released, Dev.endFrameStart, if_pos (by rw [ends]; exact due')]
    · rw [exec_frameStartEnd q released, Dev.endFrameStart, if_neg (by rw [ends, dueAt, early]; simp)]
  · refine ⟨fun early => ?_, fun notDue => ?_⟩
    · show State.run _ ⟨d, q⟩ = _
      rw [State.run_eq, show d.echoIsDue = false from early]
      simp
    · show State.run _ ⟨d, q⟩ = _
      have notDue : d.statusIsDue = false := by
        rw [← Bool.not_eq_true, Dev.statusIsDue_iff]
        rintro ⟨unplanned, due⟩
        rcases notDue with planned | early
        · exact planned unplanned
        · rw [early] at due
          cases due
      rw [State.run_eq, notDue]
      simp

/-! ### References (O27) -/

/-- The additions of R109 are the only number that is sufficient and least. -/
theorem additions_unique {now a : HeadTime} {period k : Nat} (low : 1000000 ≤ period) (high : period ≤ 8000000)
    (past : later (a + BitVec.ofNat 32 (k * period)) now = true)
    (least : ∀ j, j < k → later (a + BitVec.ofNat 32 (j * period)) now = false) : additions now a period = k := by
  obtain ⟨past', least'⟩ := additionsAreTheLeast now a period low high
  rcases Nat.lt_trichotomy (additions now a period) k with below | same | above
  · rw [least _ below] at past'
    cases past'
  · exact same
  · rw [least' k above] at past
    cases past

/-- The genlock state and lock run of R116, in the words of the claim. -/
theorem Genlock.next_eq (g : Genlock) (run : Nat) (inWindow : Prop) [Decidable inWindow] :
    g.next run (decide inWindow) =
      (if inWindow ∧ (g = .locked ∨ (g = .locking ∧ 2 ≤ run)) then .locked else .locking,
       if inWindow then (match g with | .free => 1 | .locking => min 3 (run + 1) | .locked => 3) else 0) := by
  by_cases inside : inWindow
  · cases g with
    | free => simp [Genlock.next, inside]
    | locking =>
      by_cases enough : 2 ≤ run
      · simp [Genlock.next, inside, enough]
      · have few : run + 1 ≤ 3 := by omega
        simp [Genlock.next, inside, enough, few]
    | locked => simp [Genlock.next, inside]
  · cases g <;> simp [Genlock.next, inside]

/-- A reference that computes an anchor moves the timing generator, the phase-steps counter, and, when LOCKED is left, the
report writer (R109, R110, R116). -/
theorem Dev.anchorFrom_eq (p : Plan) (tr predicted : HeadTime) (d : Dev) :
    let t := d.timing.reanchor p tr predicted
    ∃ rep, (d.timing.genlock = .locked → t.genlock ≠ .locked → Report.CauseSet .genlock d.report rep) ∧
      (d.timing.genlock ≠ .locked ∨ t.genlock = .locked → rep = d.report) ∧
      d.anchorFrom p tr predicted = { d with
        report := rep
        counters := if t.phaseError.toInt.natAbs ≤ p.lockWindow then d.counters
          else { d.counters with phaseSteps := satInc d.counters.phaseSteps }
        timing := t } := by
  intro t
  let e : Dev := { d with
    counters := if t.phaseError.toInt.natAbs ≤ p.lockWindow then d.counters
      else { d.counters with phaseSteps := satInc d.counters.phaseSteps }
    timing := t }
  let x : Dev := if p.lockWindow < t.phaseError.toInt.natAbs then
      Dev.count (fun c => { c with phaseSteps := satInc c.phaseSteps }) { d with timing := t }
    else { d with timing := t }
  have counted : x = e := by
    by_cases inside : t.phaseError.toInt.natAbs ≤ p.lockWindow
    · simp only [x, e, if_neg (Nat.not_lt.mpr inside), if_pos inside]
    · simp only [x, e, if_pos (Nat.not_le.mp inside), if_neg inside, Dev.count]
  have moved : d.anchorFrom p tr predicted =
      if decide (d.timing.genlock = .locked) && decide (x.timing.genlock ≠ .locked) then x.setCause .genlock else x := rfl
  rw [counted] at moved
  by_cases leaves : d.timing.genlock = .locked ∧ t.genlock ≠ .locked
  · obtain ⟨rep, set, spec⟩ := Dev.setCause_spec .genlock e
    refine ⟨rep, fun _ _ => spec, fun stays => ?_, ?_⟩
    · rcases stays with free | locked
      · exact absurd leaves.1 free
      · exact absurd locked leaves.2
    · rw [moved, if_pos (by simpa [e] using leaves), set]
  · refine ⟨d.report, fun was left => absurd ⟨was, left⟩ leaves, fun _ => rfl, ?_⟩
    rw [moved, if_neg (by simpa [e] using leaves)]

theorem exec_reference {d : Dev} (q : List Instr) (released : d.resetAsserted = false) (count : BitVec 32)
    (tr : HeadTime) : exec (.reference count tr) ⟨d, q⟩ = .next ⟨d.takeReference count tr, q⟩ :=
  State.run_of_released _ released

theorem exec_referenceLossDeadline {d : Dev} (q : List Instr) (released : d.resetAsserted = false) :
    exec .referenceLossDeadline ⟨d, q⟩ =
      .next ⟨if dueAt d.timing.now d.timing.lossDeadline then d.loseReference else d, q⟩ :=
  State.run_of_released _ released

/-- Settles O27: the anchor by `additions_unique`, its effects by `anchorFrom_eq` and `Genlock.next_eq`. -/
theorem referencesAreTaken : Obligations.ReferencesAreTaken := by
  refine ⟨fun d q released => ⟨fun count tr noAnchor => ?_, fun due deadline passed => ?_⟩,
    fun d q count tr predicted w k released working valid anchored limits => ?_⟩
  · intro limit locks
    have same : lossLimit d.plan? = limit := by
      cases working : d.plan.working <;> simp [Dev.plan?, working, lossLimit, limit]
    rw [exec_reference q released, Dev.takeReference, same]
    by_cases valid : d.timing.delayValid = true
    · have unplanned : d.plan? = none := by simp [Dev.plan?, noAnchor.resolve_right (by simp [valid])]
      have stays : (d.updTiming fun t => { t with
          lossDeadline := some (t.now + BitVec.ofNat 32 limit), nextBase := count + 1 }).plan? = none := unplanned
      simp only [stays]
      by_cases free : d.timing.genlock = .free
      · simp [valid, free, if_pos (show locks from ⟨valid, free⟩), Dev.updTiming]
      · simp [valid, free, if_neg (show ¬locks from fun h => free h.2), Dev.updTiming]
    · simp [valid, if_neg (show ¬locks from fun h => valid h.1), Dev.updTiming]
  · intro e
    have ran : exec .referenceLossDeadline ⟨d, q⟩ = .next ⟨d.loseReference, q⟩ := by
      rw [exec_referenceLossDeadline q released, if_pos (by rw [deadline]; exact passed)]
    have lost : d.loseReference = if d.timing.genlock = .locked then e.setCause .genlock else e := rfl
    rw [ran, lost]
    refine ⟨fun free => ?_, fun locked => ?_⟩
    · rw [if_neg free]
    · obtain ⟨rep, set, spec⟩ := Dev.setCause_spec .genlock e
      refine ⟨rep, ?_, spec⟩
      rw [if_pos locked, set]
  · intro a e inWindow past least
    obtain ⟨-, -, -, -, low, high, -⟩ := limits
    let f : Dev := { d with timing := { d.timing with
      lossDeadline := some (d.timing.now + BitVec.ofNat 32 (8 * w.plan.period)), nextBase := count + 1 } }
    have plan : d.plan? = some w.plan := by simp [Dev.plan?, working]
    have ran : d.takeReference count tr = f.anchorFrom w.plan tr predicted := by
      rw [Dev.takeReference, plan]
      simp only [Dev.updTiming, valid, anchored]
      simp [f, Dev.plan?, working, lossLimit, valid, anchored]
    have steps : additions f.timing.now (w.plan.firstAnchor tr f.timing.delay) w.plan.period = k :=
      additions_unique low high past least
    obtain ⟨rep, leaves, stays, moved⟩ := Dev.anchorFrom_eq w.plan tr predicted f
    have timing : f.timing.reanchor w.plan tr predicted = { d.timing with
        lossDeadline := some (d.timing.now + BitVec.ofNat 32 (8 * w.plan.period))
        nextBase := count + 1 + BitVec.ofNat 32 k
        phaseError := e
        nextAnchor := some (a k)
        inGroup := d.timing.inGroup.filter fun c => !reached c.at_ (a k)
        genlock := (d.timing.genlock.next d.timing.lockRun (decide inWindow)).1
        lockRun := (d.timing.genlock.next d.timing.lockRun (decide inWindow)).2 } := by
      rw [Timing.reanchor, steps]
      rfl
    refine ⟨rep, fun locked outside => leaves locked ?_, fun h => stays ?_, ?_⟩
    · rw [timing, Genlock.next_eq]
      simp [outside]
    · rw [timing, Genlock.next_eq]
      by_cases locked : d.timing.genlock = .locked
      · have inside := h.resolve_left (by simpa using locked)
        exact .inr (by simp [inside, locked])
      · exact .inl locked
    · rw [exec_reference q released, ran, moved, timing, Genlock.next_eq] <;> rfl

end Sys2Proof.Machine
end

section
/-! SUPPORT. Anchors and captures (section 5.2, section 6.4): O30, O31. -/

namespace Sys2Proof.Machine

/-! ### A capture that takes a slot (R81 to R86) -/

/-- Changing the record just put at a place. -/
theorem modify_set {α : Type} (l : List α) (i : Nat) (x : α) (f : α → α) : (l.set i x).modify i f = l.set i (f x) := by
  refine List.ext_getElem? fun j => ?_
  rw [List.getElem?_modify, List.getElem?_set, List.getElem?_set]
  by_cases here : i = j
  · subst here
    by_cases inside : i < l.length <;> simp [inside]
  · simp [here]

/-- A fresh context, as a capture binds it (R52, R53). -/
def Dev.freshCtx (p : Plan) (s : Nat) (start : HeadTime) (d : Dev) : Context :=
  { binding := d.tracker.nextBinding, slot := s, frameStart := start, fronts := List.replicate p.tiles.length .start }

/-- The tracker with a context bound to its lowest-numbered free number (R53). -/
def Tracker.bind (x : Context) (t : Tracker) : Tracker :=
  if t.ctx0 = none then { t with ctx0 := some x, order := t.order ++ [.c0], nextBinding := x.binding + 1 }
  else { t with ctx1 := some x, order := t.order ++ [.c1], nextBinding := x.binding + 1 }

theorem Dev.bindCtx_of_free {d : Dev} (p : Plan) (s : Nat) (start : HeadTime)
    (free : d.tracker.ctx0 = none ∨ d.tracker.ctx1 = none) :
    d.bindCtx p s start = { d with tracker := d.tracker.bind (d.freshCtx p s start) } := by
  unfold Dev.bindCtx Tracker.bind Dev.freshCtx
  dsimp only
  split
  · next first => rw [if_pos first]
  · next first second => rw [if_neg (by simp [first])]
  · next first second => simp [first, second] at free

/-- With a context free no frame is force-closed (R81). -/
theorem Tracker.toForce_of_free {t : Tracker} (free : t.ctx0 = none ∨ t.ctx1 = none) : t.toForce = none := by
  unfold Tracker.toForce
  rcases free with free | free
  · simp [free]
  · cases t.ctx0 <;> simp [free]

theorem Dev.takeCapture_of_paused {d : Dev} {p : Plan} {at_ : HeadTime} {phase : Nat} {base : BitVec 32}
    (paused : d.ring.gate = .paused) : d.takeCapture p at_ phase base = d := if_pos paused

/-- A capture with a context free: the chosen slot is allocated, or the capture is skipped (R81). -/
theorem Dev.takeCapture_of_free {d : Dev} {p : Plan} {at_ : HeadTime} {phase : Nat} {base : BitVec 32}
    (runs : d.ring.gate ≠ .paused) (free : d.tracker.ctx0 = none ∨ d.tracker.ctx1 = none) :
    d.takeCapture p at_ phase base = match d.ring.choose p.slots with
      | none => d.count fun c => { c with skippedCaptures := satInc c.skippedCaptures }
      | some s => d.allocate p s at_ phase base := by
  rw [Dev.takeCapture, if_neg runs, Tracker.toForce_of_free free] <;> rfl

/-- The block with slot `s` allocated and bound, before the live reader is asked (R85, R86). -/
def Dev.allotted (p : Plan) (s : Nat) (at_ : HeadTime) (phase : Nat) (base : BitVec 32) (d : Dev) : Dev := { d with
  ring := d.ring.allocate p s phase base d.timing.now
  tracker := d.tracker.bind (d.freshCtx p s at_) }

theorem Dev.bindCtx_allotted {d : Dev} {p : Plan} {s : Nat} {at_ : HeadTime} {phase : Nat} {base : BitVec 32}
    (free : d.tracker.ctx0 = none ∨ d.tracker.ctx1 = none) :
    Dev.bindCtx p s at_ { d with ring := d.ring.allocate p s phase base d.timing.now } =
      d.allotted p s at_ phase base :=
  Dev.bindCtx_of_free (d := { d with ring := d.ring.allocate p s phase base d.timing.now }) p s at_ free

theorem Dev.allocate_of_phase {d : Dev} {p : Plan} {s : Nat} {at_ : HeadTime} {phase : Nat} {base : BitVec 32}
    (free : d.tracker.ctx0 = none ∨ d.tracker.ctx1 = none) (later : phase ≠ 0) : d.allocate p s at_ phase base =
      { d.allotted p s at_ phase base with
        ring := { d.ring.allocate p s phase base d.timing.now with gate := d.ring.gate.counted } } := by
  rw [Dev.allocate, Dev.bindCtx_allotted free, if_neg later]
  rfl

theorem Dev.allocate_of_anchor {d : Dev} {p : Plan} {s : Nat} {at_ : HeadTime} {base : BitVec 32}
    (free : d.tracker.ctx0 = none ∨ d.tracker.ctx1 = none) : d.allocate p s at_ 0 base =
      ((d.allotted p s at_ 0 base).liveOffer p s).setGate ((d.allotted p s at_ 0 base).liveOffer p s).ring.gate.counted := by
  rw [Dev.allocate, Dev.bindCtx_allotted free, if_pos rfl]
  rfl

/-! ### The anchor event -/

theorem exec_anchorEvent {d : Dev} {q : List Instr} {a : HeadTime} (released : d.resetAsserted = false)
    (next : d.timing.nextAnchor = some a) (due : reached d.timing.now a = true) :
    exec .anchorEvent ⟨d, q⟩ = .next ⟨d.takeAnchor a, q⟩ := by
  refine (State.run_of_released _ released).trans ?_
  rw [Dev.anchorDue, next]
  simp only [if_pos due]

/-- The plan that the anchor event applies first: the pending one, when it is old enough (R26). -/
def Dev.ripe (a : HeadTime) (d : Dev) : Option PendingPlan :=
  match d.plan.pending with
  | none => none
  | some n => if 65536 ≤ (a - n.at_).toNat then some n else none

theorem Dev.examinePending_eq (a : HeadTime) (d : Dev) : d.examinePending a = match d.ripe a with
    | none => d
    | some n => d.apply n := by
  unfold Dev.examinePending Dev.ripe
  cases d.plan.pending with
  | none => rfl
  | some n => 
    dsimp only
    split <;> rfl

/-- The block of the anchor event with its group built (R113). -/
def Dev.grouped (p : Plan) (a : HeadTime) (d : Dev) : Dev := d.updTiming fun t => t.buildGroup p a

/-- The block of the anchor event with its group built and its capture taken (R113, R114). -/
def Dev.anchored (p : Plan) (a : HeadTime) (d : Dev) : Dev := (d.grouped p a).takeCapture p a 0 d.timing.nextBase

/-- Without a ripe plan the event is its group, its capture, its HEAD-STATUS and its record (R113, R118, R33). -/
theorem Dev.takeAnchor_of_unripe {d : Dev} {a : HeadTime} {p : Plan} (unripe : d.ripe a = none)
    (plan : d.plan? = some p) : d.takeAnchor a = Dev.recordDue (((d.anchored p a).offer
      ((d.anchored p a).headStatus .anchor a d.timing.nextBase)).dropReport) := by
  unfold Dev.takeAnchor
  rw [Dev.examinePending_eq, unripe]
  simp only [plan]
  rfl

/-- A ripe plan is applied first; the event is then that of the block after apply (R26, R27). -/
theorem Dev.takeAnchor_of_ripe {d : Dev} {a : HeadTime} {n : PendingPlan} (ripe : d.ripe a = some n) :
    d.takeAnchor a = (d.apply n).takeAnchor a := by
  obtain ⟨plan, -⟩ := Dev.apply_parts n d
  have unripe : (d.apply n).ripe a = none := by simp [Dev.ripe, plan]
  unfold Dev.takeAnchor
  rw [Dev.examinePending_eq, ripe, Dev.examinePending_eq, unripe]

/-- With room for the HEAD-STATUS, no RETURN-DROP owed and a record being written. -/
theorem Dev.anchorReports {x : Dev} (e : Entry) (nine : e.threshold = 9) (room : x.downlink.ctrl.length ≤ 55)
    (noDrops : x.feed.pendingDrop = 0) (writing : x.report.writing ≠ none) :
    Dev.recordDue ((x.offer e).dropReport) = { x with
      downlink := { x.downlink with ctrl := x.downlink.ctrl ++ [e] }
      report := { x.report with recordDue := true } } := by
  rw [Dev.offer_of_room nine room, Dev.dropReport_none (d := x.enqueue e) noDrops,
    Dev.recordDue_flags (d := x.enqueue e) writing]
  rfl

/-- What the anchor event without a ripe plan leaves alone. -/
theorem Dev.takeAnchor_frame_of_unripe {d : Dev} {a : HeadTime} {p : Plan} (unripe : d.ripe a = none)
    (plan : d.plan? = some p) : (d.takeAnchor a).timing = d.timing.buildGroup p a ∧ (d.takeAnchor a).plan = d.plan ∧
      (d.takeAnchor a).mem = d.mem ∧ (d.takeAnchor a).uplink = d.uplink ∧ (d.takeAnchor a).remote = d.remote ∧
      (d.takeAnchor a).watch = d.watch := by
  rw [Dev.takeAnchor_of_unripe unripe plan]
  simp [Dev.anchored, Dev.grouped]

/-- Settles O30: after the apply of a ripe plan the group is that of the plan at work. -/
theorem anchorEventBuildsTheGroup : Obligations.AnchorEventBuildsTheGroup := by
  intro d q a w released working next due take p
  have taken : take = d.ripe a := by
    simp only [take, Dev.ripe] <;> cases d.plan.pending <;> rfl
  refine ⟨d.takeAnchor a, exec_anchorEvent released next due, ?_⟩
  have planned : d.plan? = some w.plan := by simp [Dev.plan?, working]
  cases ripe : d.ripe a with
  | none =>
    rw [ripe] at taken
    have frame := Dev.takeAnchor_frame_of_unripe ripe planned
    obtain ⟨timing, plan, mem, uplink, remote, watch⟩ := frame
    simp only [p, taken]
    refine ⟨timing, plan, mem, uplink, remote, watch, fun _ paused room noDrops writing => ?_⟩
    rw [timing, Dev.takeAnchor_of_unripe ripe planned, Dev.anchored,
      Dev.takeCapture_of_paused (d := d.grouped w.plan a) paused,
      Dev.anchorReports (x := d.grouped w.plan a) _ rfl room noDrops writing, Dev.headStatus,
      show (d.grouped w.plan a).plan? = some w.plan from planned]
    rfl
  | some n =>
    rw [ripe] at taken
    obtain ⟨plan, -⟩ := Dev.apply_parts n d
    have unripe : (d.apply n).ripe a = none := by simp [Dev.ripe, plan]
    have planned : (d.apply n).plan? = some n.plan := by simp [Dev.plan?, plan]
    obtain ⟨timing, plan', mem, uplink, remote, watch⟩ := Dev.takeAnchor_frame_of_unripe unripe planned
    rw [← Dev.takeAnchor_of_ripe ripe] at timing plan' mem uplink remote watch
    simp only [p, taken]
    obtain ⟨-, mem', -, timing', uplink', remote', watch', -⟩ := Dev.apply_frame n d
    rw [timing'] at timing
    refine ⟨timing, plan'.trans plan, mem.trans mem', uplink.trans uplink', remote.trans remote',
      watch.trans watch', fun none => ?_⟩
    simp [Dev.ripe, none] at ripe

/-! ### Apply at an anchor -/

/-- The block at apply, before the return feed takes its ring up and the REPLAY-END entries are offered (R27). -/
def Dev.replanned (n : PendingPlan) (d : Dev) : Dev := { d with
  plan := { d.plan with working := some ⟨n.plan, n.seq⟩, pending := none }
  tracker := { d.tracker with ctx0 := none, ctx1 := none, order := [] }
  ring := d.ring.cleared
  live := d.live.dropFrames
  replay := d.replay.allEnded }

/-- What a producer value handed on does to the report writer (R35). -/
theorem Dev.handProducer_spec (v : Nat) (d : Dev) : ∃ rep, d.handProducer v = { d with report := rep } ∧
    rep.producer = some v ∧ rep.causes = d.report.causes ∧ rep.writing = d.report.writing ∧
    (rep.producerWanted = true ∨ rep.presented = some .producerWord) := by
  by_cases presented : d.report.presented = some .producerWord
  · exact ⟨_, if_pos presented, rfl, rfl, rfl, .inr presented⟩
  · refine ⟨_, if_neg presented, by simp, by simp, by simp, ?_⟩
    cases idle : d.report.presented with
    | some w => exact .inl (by simp [Report.present])
    | none => exact .inr (by simp [Report.present])

/-- The feed with the ring of a plan taken up empty (R193). -/
def Feed.fresh (p : Plan) (f : Feed) : Feed :=
  { f with
    start := p.retStart, stop := p.retEnd, producer := p.retStart, consumer := p.retStart, fifo := []
    drain := f.drain.onRingChange }

theorem Dev.feedApply_same {p : Plan} {d : Dev} (same : p.retStart = d.feed.start ∧ p.retEnd = d.feed.stop) :
    d.feedApply p = d.drainExamine := if_pos same

/-- A changed ring: the drain write in hand is withdrawn or marked, and the new start is handed on (R193, R35). -/
theorem Dev.feedApply_changed {p : Plan} {d : Dev} (changed : ¬(p.retStart = d.feed.start ∧ p.retEnd = d.feed.stop)) :
    d.feedApply p = Dev.handProducer p.retStart { d with feed := d.feed.fresh p } := by
  have idle : (d.feed.fresh p).examine = d.feed.fresh p := Feed.examine_of_idle (.inl rfl)
  obtain ⟨rep, handed, -⟩ := Dev.handProducer_spec p.retStart { d with feed := d.feed.fresh p }
  rw [Dev.feedApply, if_neg changed]
  show (Dev.handProducer p.retStart { d with feed := d.feed.fresh p }).drainExamine = _
  rw [handed]
  exact congrArg (fun f => ({ d with report := rep, feed := f } : Dev)) idle

/-- The anchor event of a block whose pending plan is ripe is that of the block after apply. -/
theorem exec_anchorEvent_of_ripe {d x : Dev} {q : List Instr} {a : HeadTime} {n : PendingPlan}
    (released : d.resetAsserted = false) (next : d.timing.nextAnchor = some a) (due : reached d.timing.now a = true)
    (ripe : d.ripe a = some n) (applied : d.apply n = x) :
    exec .anchorEvent ⟨d, q⟩ = exec .anchorEvent ⟨x, q⟩ := by
  subst applied
  obtain ⟨reset, -, -, timing, -⟩ := Dev.apply_frame n d
  rw [exec_anchorEvent released next due, Dev.takeAnchor_of_ripe ripe,
    exec_anchorEvent (d := d.apply n) (a := a) (reset.trans released) (by rw [timing, next]) (by rw [timing, due])]

/-! ### The phase-0 capture and the live reader (R130) -/

/-- The live reader's state when slot `s` becomes its active frame, in the words of the claim (R132, R133). -/
theorem LiveReader.assign_eq (l : LiveReader) (p : Plan) (s : Nat) : l.assign p s =
    if p.order = .raster then { l with active := some s, handed := 0, rasterPtr := 0 }
    else { l with
      active := some s, handed := 0, rotation := 0
      strips := p.strips.map fun σ => { line := if σ.up then σ.first + σ.height - 1 else σ.first, remaining := σ.height } } := by
  unfold LiveReader.assign
  cases p.order <;> rfl

section
variable {d : Dev} {p : Plan} {s : Nat}

theorem Dev.liveOffer_of_idle (idle : d.live.active = none) :
    d.liveOffer p s = Dev.liveExamine { d.mark .live s with live := d.live.assign p s } := by
  simp [Dev.liveOffer, Dev.mark, Dev.updSlot, idle]

theorem Dev.liveOffer_of_active {u : Nat} (active : d.live.active = some u) (free : d.live.waiting = none) :
    d.liveOffer p s = { d.mark .live s with live := { d.live with waiting := some s } } := by
  simp [Dev.liveOffer, Dev.mark, Dev.updSlot, active, free]

theorem Dev.liveOffer_of_waiting {u v : Nat} (active : d.live.active = some u) (waits : d.live.waiting = some v) :
    d.liveOffer p s = { ((d.mark .live s).unmark .live v).count fun c => { c with liveDrops := satInc c.liveDrops } with
      live := { d.live with waiting := some s } } := by
  simp [Dev.liveOffer, Dev.mark, Dev.unmark, Dev.updSlot, active, waits, Dev.count]

end

/-- The HEAD-STATUS and the record of an anchor event whose capture left them room (R118, R33). -/
theorem Dev.anchorReports_of_capture {d x : Dev} {p : Plan} {a : HeadTime} (planned : d.plan? = some p)
    (plan : x.plan = d.plan) (timing : x.timing = d.timing.buildGroup p a) (downlink : x.downlink = d.downlink)
    (feed : x.feed = d.feed) (report : x.report = d.report) (room : d.downlink.ctrl.length ≤ 55)
    (noDrops : d.feed.pendingDrop = 0) (writing : d.report.writing ≠ none) :
    Dev.recordDue ((x.offer (x.headStatus .anchor a d.timing.nextBase)).dropReport) = { x with
      downlink := { d.downlink with ctrl := d.downlink.ctrl ++ [.headStatus .anchor d.timing.genlock d.timing.lockRun
        p.speed a d.timing.nextBase d.timing.delay d.timing.delayValid d.timing.phaseError] }
      report := { d.report with recordDue := true } } := by
  have planned' : x.plan? = some p := by rw [Dev.plan?, plan]; exact planned
  rw [Dev.anchorReports _ rfl (by rwa [downlink]) (by rwa [feed]) (by rwa [report]), Dev.headStatus, planned', timing,
    downlink, report]
  rfl

/-- Settles O31: apply by `Dev.apply_eq` and `feedApply_changed`, the capture by `allocate_of_anchor`. -/
theorem anchorsApplyAndCapture : Obligations.AnchorsApplyAndCapture := by
  intro d q a w released working next due
  refine ⟨fun n pending old => ?_, fun i unripe runs free chosen room noDrops writing => ?_⟩
  · intro same e f
    have ripe : d.ripe a = some n := by simp only [Dev.ripe, pending, if_pos old]
    have applied : d.apply n = ((d.replanned n).feedApply n.plan).replaySettle := d.apply_eq n
    refine ⟨fun unchanged => ?_, fun changed => ?_, fun x idle ended room => ?_⟩
    · refine exec_anchorEvent_of_ripe released next due ripe ?_
      rw [applied, Dev.feedApply_same (d := d.replanned n) unchanged, Dev.thenDo_drain (d := e) released,
        Dev.thenDo_replayEnd (d := e.drainExamine) released]
      rfl
    · obtain ⟨rep, handed, producer, causes, writing, wanted⟩ :=
        Dev.handProducer_spec n.plan.retStart { d.replanned n with feed := d.feed.fresh n.plan }
      refine ⟨rep, producer, causes, writing, wanted, exec_anchorEvent_of_ripe released next due ripe ?_⟩
      have taken : (d.replanned n).feedApply n.plan = f rep := by
        refine (Dev.feedApply_changed (d := d.replanned n) changed).trans (Eq.trans handed ?_)
        unfold Feed.fresh
        simp only [f]
        cases d.feed.drain <;> rfl
      rw [applied, taken, Dev.thenDo_replayEnd (d := f rep) released]
    · rw [Dev.thenDo_replayEnd idle, Dev.replaySettle_allEnded ended room]
  · intro base f x slots t
    have planned : d.plan? = some w.plan := by simp [Dev.plan?, working]
    have noPlan : d.ripe a = none := by simp [Dev.ripe, unripe]
    let l := (d.grouped w.plan a).allotted w.plan i a 0 base
    have captured : d.anchored w.plan a = (l.liveOffer w.plan i).setGate (l.liveOffer w.plan i).ring.gate.counted := by
      rw [Dev.anchored, Dev.takeCapture_of_free (d := d.grouped w.plan a) runs free,
        show (d.grouped w.plan a).ring.choose w.plan.slots = some i from chosen]
      exact Dev.allocate_of_anchor (d := d.grouped w.plan a) free
    have marked : l.mark .live i = { t with
        ring := { t.ring with gate := d.ring.gate }, downlink := d.downlink, report := d.report } := by
      have slot : l.ring.slots.modify i (fun y => { y with live := true }) = slots := modify_set ..
      show ({ l with ring := { l.ring with slots := l.ring.slots.modify i fun y => { y with live := true } } } : Dev) = _
      rw [slot]
      rfl
    have finish (z : Dev) (taken : (l.liveOffer w.plan i).setGate (l.liveOffer w.plan i).ring.gate.counted = z)
        (plan : z.plan = d.plan) (timing : z.timing = d.timing.buildGroup w.plan a) (downlink : z.downlink = d.downlink)
        (feed : z.feed = d.feed) (report : z.report = d.report) : exec .anchorEvent ⟨d, q⟩ =
          .next ⟨{ z with downlink := t.downlink, report := t.report }, q⟩ := by
      rw [exec_anchorEvent released next due, Dev.takeAnchor_of_unripe noPlan planned, captured, taken]
      exact congrArg (fun e => Host.Outcome.next (State.mk e q))
        (Dev.anchorReports_of_capture planned plan timing downlink feed report room noDrops writing)
    refine ⟨fun idle => ?_, fun s active vacant => ?_, fun s v active waits => ?_⟩
    · have offered := Dev.liveOffer_of_idle (d := l) (p := w.plan) (s := i) idle
      rw [marked] at offered
      let y : Dev := { t with
        ring := { t.ring with gate := d.ring.gate }, downlink := d.downlink, report := d.report
        live := d.live.assign w.plan i }
      have examined : l.liveOffer w.plan i = { y with live := y.liveExamine.live } :=
        offered.trans (Dev.liveExamine_congr (d := y) (e := y) rfl rfl rfl rfl)
      have fetched : Dev.fetchLive { t with live := d.live.assign w.plan i } = { t with live := y.liveExamine.live } :=
        (Dev.fetchLive_eq (d := { t with live := d.live.assign w.plan i }) released).trans
          (Dev.liveExamine_congr (d := y) rfl rfl rfl rfl)
      rw [← LiveReader.assign_eq d.live w.plan i, fetched]
      exact finish { t with live := y.liveExamine.live, downlink := d.downlink, report := d.report }
        (by rw [examined]; rfl) rfl rfl rfl rfl rfl
    · have offered := Dev.liveOffer_of_active (d := l) (p := w.plan) (s := i) active vacant
      rw [marked] at offered
      exact finish { t with live := { d.live with waiting := some i }, downlink := d.downlink, report := d.report }
        (by rw [offered]; rfl) rfl rfl rfl rfl rfl
    · have offered := Dev.liveOffer_of_waiting (d := l) (p := w.plan) (s := i) active waits
      rw [marked] at offered
      exact finish { t with
          live := { d.live with waiting := some i }, downlink := d.downlink, report := d.report
          ring := { t.ring with slots := slots.modify v fun y => { y with live := false } }
          counters := { d.counters with liveDrops := satInc d.counters.liveDrops } }
        (by rw [offered]; rfl) rfl rfl rfl rfl rfl

end Sys2Proof.Machine
end

section
/-! SUPPORT. Remote access orders (sections 10.1 to 10.4): O50, O51. -/

namespace Sys2Proof.Machine

/-- Settles O50: each order, taken, sets its register or is refused by its one check. -/
theorem pagePointAndWatchClear : Obligations.PagePointAndWatchClear := by
  intro d q tag n addr id
  refine ⟨fun ready => ?_, fun ready => ?_, fun ready => ?_⟩
  · refine (Dev.takeOrder_of_ready _ ready).trans ?_
    dsimp only
    congr 2
    split
    · exact Dev.respond_popOrder _ _ _ _ { d with remote := { d.remote with page := n.truncate 10 } }
    · exact Dev.respond_popOrder ..
  · refine (Dev.takeOrder_of_ready _ ready).trans (congrArg (fun e => Host.Outcome.next (State.mk e q)) ?_)
    by_cases inside : addr.toNat < MemSize.bytes d.mem.memSize
    · exact (if_pos inside).trans ((Dev.respond_popOrder _ _ _ _
        { d with remote := { d.remote with pointer := addr.truncate 34 } }).trans (if_pos inside).symm)
    · exact (if_neg inside).trans ((Dev.respond_popOrder ..).trans (if_neg inside).symm)
  · refine (Dev.takeOrder_of_ready _ ready).trans ?_
    dsimp only
    congr 2
    split
    · exact Dev.respond_popOrder _ _ _ _
        { d with watch := { d.watch with table := d.watch.table.set id.toNat none } }
    · exact Dev.respond_popOrder ..

/-! ### The checks of a memory order (R175, R181) -/

/-- The first check that fails, in the order DISABLED, INVALID, RANGE, PARKED. -/
theorem Dev.memCheck_eq {ok : Bool} {fields : Prop} [Decidable fields] (spells : ok = true ↔ fields) (a n : Nat)
    (d : Dev) : d.memCheck ok a n = if d.remote.enabled = false then some .disabled
      else if ¬fields then some .invalid else if MemSize.bytes d.mem.memSize < a + n then some .range
      else if d.mem.parked then some .parked else none := by
  simp only [Dev.memCheck, Bool.not_eq_true', ← spells, Bool.not_eq_true]

theorem countOk_iff (n : Nat) : countOk n = true ↔ 1 ≤ n ∧ n ≤ 8 := by simp [countOk]

/-- The mode byte names a mode exactly when it is 0, 1 or 2 (R198). -/
theorem watchMode_isSome_iff (b : BitVec 8) : (watchMode b).isSome = true ↔ b.toNat ≤ 2 := by
  unfold watchMode
  split
  · next h => simp [h]
  · next h => simp [h]
  · next h => simp [h]
  · next none one two =>
    have none : b.toNat ≠ 0 := none
    have one : b.toNat ≠ 1 := one
    have two : b.toNat ≠ 2 := two
    simp only [Option.isSome_none, Bool.false_eq_true, false_iff]
    omega

theorem watchMode_getD (b : BitVec 8) :
    (watchMode b).getD .every = if b = 1 then .change else if b = 2 then .once else .every := by
  have one : b = 1 ↔ b.toNat = 1 := by rw [← BitVec.toNat_inj]; rfl
  have two : b = 2 ↔ b.toNat = 2 := by rw [← BitVec.toNat_inj]; rfl
  simp only [one, two, watchMode]
  split
  · next h => simp [h]
  · next h => simp [h]
  · next h => simp [h]
  · next h0 h1 h2 => rw [if_neg h1, if_neg h2]; rfl

theorem watchFieldsOk_iff (id len mode : BitVec 8) :
    (decide (id.toNat ≤ 7) && countOk len.toNat && (watchMode mode).isSome) = true ↔
      id.toNat ≤ 7 ∧ (1 ≤ len.toNat ∧ len.toNat ≤ 8) ∧ mode.toNat ≤ 2 := by
  simp [watchMode_isSome_iff, countOk_iff, and_assoc]

/-- A memory order, taken: answered by its first failing check, or its first request presented. -/
theorem exec_memOrder {c : Instr} {d : Dev} {q : List Instr} (ready : Ready c ⟨d, q⟩) (kind : Byte) (tag : Tag)
    {ok : Bool} {fields : Prop} [Decidable fields] (spells : ok = true ↔ fields) (a n : Nat) (o : MemOrder)
    (use : RemoteUse) (op : BusOp) (f : Dev → Dev) (does : f d.popOrder = d.popOrder.memOrder kind tag ok a n o use op) :
    State.run (Dev.takeOrder c f) ⟨d, q⟩ = .next ⟨match (if d.remote.enabled = false then some Status.disabled
      else if ¬fields then some .invalid else if MemSize.bytes d.mem.memSize < a + n then some .range
      else if d.mem.parked then some .parked else none) with
        | some x => d.answered kind tag x []
        | none => d.presented kind tag o use op, q⟩ := by
  rw [Dev.takeOrder_of_ready f ready, does, Dev.memOrder_popOrder, Dev.memCheck_eq spells] <;> rfl

/-- Settles O51: every memory order is taken, checked in the one order, and its request presented. -/
theorem memoryOrdersAreChecked : Obligations.MemoryOrdersAreChecked := by
  intro d q tag offset count bytes value mask id len mode addr check out a p n how
  have always : true = true ↔ True := ⟨fun _ => trivial, fun _ => rfl⟩
  refine ⟨fun ready => ?_, fun ready => ?_, fun ready => ?_, fun ready => ?_, fun ready => ?_, fun ready => ?_⟩
  · exact exec_memOrder ready kindRead tag (countOk_iff n) a n (.read n) .read (.read (BitVec.ofNat 34 a) n) _ rfl
  · exact exec_memOrder ready kindWrite tag always a bytes.length (.write bytes.length) .write
      (.write (BitVec.ofNat 34 a) bytes) _ rfl
  · exact exec_memOrder ready kindReadNext tag (countOk_iff n) p.toNat n (.readNext n) .read (.read p n) _ rfl
  · exact exec_memOrder ready kindWriteNext tag always p.toNat bytes.length (.writeNext bytes.length) .write
      (.write p bytes) _ rfl
  · exact exec_memOrder ready kindMaskWrite tag always a value.length (.maskWrite a value mask none) .maskRead
      (.read (BitVec.ofNat 34 a) value.length) _ rfl
  · rw [show how = (watchMode mode).getD .every from (watchMode_getD mode).symm]
    exact exec_memOrder ready kindWatchSet tag (watchFieldsOk_iff id len mode) addr.toNat len.toNat
      (.watchSet id.toNat addr.toNat len.toNat ((watchMode mode).getD .every)) .seed
      (.read (addr.truncate 34) len.toNat) _ rfl

end Sys2Proof.Machine
end

section
/-! SUPPORT. Watch hits (section 10.5) and the ends of the memory orders (section 10.2 to 10.4): O54, O52, O53. -/

namespace Sys2Proof.Machine

/-! ### A hit and its offer (R184, R185) -/

/-- A byte of an overlaid value: the written one where the write covers it, else the old one. -/
theorem overlay_getElem? {α : Type} (a : Nat) (bytes : List α) (k : Nat) (xs : List α) (i : Nat) :
    (overlay a bytes k xs)[i]? = xs[i]?.map fun x =>
      if a ≤ k + i ∧ k + i < a + bytes.length then bytes.getD (k + i - a) x else x := by
  induction xs generalizing k i with
  | nil => rfl
  | cons x xs ih =>
    cases i with
    | zero => rfl
    | succ i =>
      rw [overlay, List.getElem?_cons_succ, ih]
      simp only [Nat.succ_add_eq_add_succ, List.getElem?_cons_succ]

theorem overlay_eq_range (a : Nat) (bytes : List Byte) (k : Nat) (xs : List Byte) :
    overlay a bytes k xs = (List.range xs.length).map fun i =>
      if a ≤ k + i ∧ k + i < a + bytes.length then bytes.getD (k + i - a) 0 else xs.getD i 0 := by
  refine List.ext_getElem? fun i => ?_
  rw [overlay_getElem?]
  by_cases inside : i < xs.length
  · rw [List.getElem?_eq_getElem inside, List.getElem?_map, List.getElem?_range inside]
    simp only [Option.map_some, List.getD_eq_getElem?_getD, List.getElem?_eq_getElem inside, Option.getD_some]
    split
    · next covered =>
      have within : k + i - a < bytes.length := by omega
      simp only [List.getElem?_eq_getElem within, Option.getD_some]
    · rfl
  · rw [List.getElem?_eq_none (by omega), List.getElem?_eq_none (by simpa using inside)]
    rfl

theorem WatchEntry.wants_iff (e : WatchEntry) : e.wants = true ↔ e.mode ≠ .change ∨ e.known ≠ e.reported := by
  unfold WatchEntry.wants
  cases e.mode <;> simp

/-- The entry after an offer: freed if ONCE, else its reported value moved by a taken one alone. -/
theorem WatchEntry.afterOffer_eq (e : WatchEntry) (taken : Bool) : e.afterOffer taken =
    if e.mode = .once then none else some { e with reported := if taken then e.known else e.reported } := by
  obtain ⟨addr, len, mode, known, reported⟩ := e
  cases mode <;> cases taken <;> rfl

/-- An offer rewrites the WATCH entries of its id and no other entry (R155). -/
theorem Entry.rewrite_eq (id : Nat) (value : List Byte) (time : HeadTime) (x : Entry) :
    (if x.isWatch id then x.coalesce value time else x) = match x with
      | .watch j v u n => if j = id then .watch j value time (satInc n) else .watch j v u n
      | x => x := by
  cases x <;> simp [Entry.isWatch, Entry.coalesce]

/-- A judged hit that offers nothing leaves the entry with its known value. -/
theorem Dev.judgeHit_quiet (id : Nat) {e : WatchEntry} (time : HeadTime) (d : Dev)
    (quiet : ¬(e.mode ≠ .change ∨ e.known ≠ e.reported)) : d.judgeHit id e time = d.setEntry id (some e) :=
  if_neg (mt e.wants_iff.mp quiet)

theorem Dev.judgeHit_rewrites {id : Nat} {e : WatchEntry} {time : HeadTime} {d : Dev}
    (offers : e.mode ≠ .change ∨ e.known ≠ e.reported) (waits : d.downlink.ctrl.any (Entry.isWatch id) = true) :
    d.judgeHit id e time = { d with
      watch := { d.watch with table := d.watch.table.set id (e.afterOffer true) }
      downlink := { d.downlink with ctrl := d.downlink.ctrl.map fun x =>
        match x with
        | .watch j v u n => if j = id then .watch j e.known time (satInc n) else .watch j v u n
        | x => x } } := by
  rw [Dev.judgeHit, if_pos (e.wants_iff.mpr offers)]
  rcases d.offerWatch_cases id e.known time with ⟨-, told⟩ | ⟨h, -⟩ | ⟨h, -⟩
  · have rewrites := List.map_congr_left (l := d.downlink.ctrl) fun x _ => Entry.rewrite_eq id e.known time x
    rw [told, rewrites] <;> rfl
  · simp [h] at waits
  · simp [h] at waits

theorem Dev.judgeHit_appends {id : Nat} {e : WatchEntry} {time : HeadTime} {d : Dev}
    (offers : e.mode ≠ .change ∨ e.known ≠ e.reported) (waits : d.downlink.ctrl.any (Entry.isWatch id) = false)
    (room : d.downlink.ctrl.length ≤ 47) : d.judgeHit id e time = { d with
      watch := { d.watch with table := d.watch.table.set id (e.afterOffer true) }
      downlink := { d.downlink with ctrl := d.downlink.ctrl ++ [.watch id e.known time 1] } } := by
  rw [Dev.judgeHit, if_pos (e.wants_iff.mpr offers)]
  rcases d.offerWatch_cases id e.known time with ⟨h, -⟩ | ⟨-, -, told⟩ | ⟨-, h, -⟩
  · simp [h] at waits
  · rw [told]; rfl
  · omega

theorem Dev.judgeHit_drops {id : Nat} {e : WatchEntry} {time : HeadTime} {d : Dev}
    (offers : e.mode ≠ .change ∨ e.known ≠ e.reported) (waits : d.downlink.ctrl.any (Entry.isWatch id) = false)
    (full : 47 < d.downlink.ctrl.length) : d.judgeHit id e time = { d with
      watch := { d.watch with table := d.watch.table.set id (e.afterOffer false) }
      counters := { d.counters with droppedEntries := satInc d.counters.droppedEntries } } := by
  rw [Dev.judgeHit, if_pos (e.wants_iff.mpr offers)]
  rcases d.offerWatch_cases id e.known time with ⟨h, -⟩ | ⟨-, h, -⟩ | ⟨-, -, told⟩
  · simp [h] at waits
  · omega
  · rw [told]; rfl

/-- A hit on an ARMED entry is judged with the written bytes put into the known value. -/
theorem Dev.watchHit_of_armed {d : Dev} {id : Nat} {e : WatchEntry} (armed : d.watch.entry id = some e) (a : Nat)
    (bytes : List Byte) : d.watchHit id a bytes =
      d.judgeHit id { e with known := overlay a bytes e.addr e.known } d.timing.now := by
  rw [Dev.watchHit, armed]

/-- Settles O54: the hit is judged on the overlaid value, in each of the four cases of an offer. -/
theorem watchHitsAreReported : Obligations.WatchHitsAreReported := by
  intro d id a bytes e armed sized known set after offers waits
  have fills : overlay a bytes e.addr e.known = known := by rw [overlay_eq_range, sized]
  rw [Dev.watchHit_of_armed armed, fills]
  let hit : WatchEntry := { e with known := known }
  have left (taken : Bool) : hit.afterOffer taken = after taken := hit.afterOffer_eq taken
  refine ⟨fun quiet => Dev.judgeHit_quiet id _ d quiet, fun offer wait => ?_, fun offer wait room => ?_,
    fun offer wait full => ?_⟩
  · rw [Dev.judgeHit_rewrites offer wait, show WatchEntry.afterOffer _ true = after true from left true] <;> rfl
  · rw [Dev.judgeHit_appends offer wait room, show WatchEntry.afterOffer _ true = after true from left true]
  · rw [Dev.judgeHit_drops offer wait full, show WatchEntry.afterOffer _ false = after false from left false]

end Sys2Proof.Machine
end

section
/-! SUPPORT. The ends of the memory orders (sections 10.2 to 10.4): O52, O53. -/

namespace Sys2Proof.Machine

/-! ### What the remote access unit does with a response (R177, R179, R183) -/

section
variable {d : Dev} {kind : Byte} {tag : Tag}

theorem Dev.remoteReply_read {o : MemOrder} (doing : d.uplink.executor = .executing kind tag o) (reply : MemReply) :
    d.remoteReply .read reply = d.endOrder kind tag o reply := by
  simp [Dev.remoteReply, doing]

theorem Dev.remoteReply_write {o : MemOrder} (doing : d.uplink.executor = .executing kind tag o) (reply : MemReply) :
    d.remoteReply .write reply = (d.faultOn reply).endOrder kind tag o reply := by
  simp [Dev.remoteReply, doing]

theorem Dev.remoteReply_maskWrite {o : MemOrder} (doing : d.uplink.executor = .executing kind tag o)
    (reply : MemReply) : d.remoteReply .maskWrite reply = (d.faultOn reply).endOrder kind tag o reply := by
  simp [Dev.remoteReply, doing]

theorem Dev.remoteReply_maskRead {a : Nat} {value mask : List Byte} {old : Option (List Byte)}
    (doing : d.uplink.executor = .executing kind tag (.maskWrite a value mask old)) (reply : MemReply) :
    d.remoteReply .maskRead reply = d.maskReadReply kind tag a value mask reply := by
  rw [Dev.remoteReply, doing]

theorem Dev.remoteReply_seed {o : MemOrder} (doing : d.uplink.executor = .executing kind tag o) (reply : MemReply) :
    d.remoteReply .seed reply = d.seedReply kind tag o reply := by
  simp [Dev.remoteReply, doing]

end

/-- An error ends any memory order with FAULT. -/
theorem Dev.endOrder_error (kind : Byte) (tag : Tag) (o : MemOrder) (d : Dev) :
    d.endOrder kind tag o .error = d.responds kind tag .fault [] := d.respond_eq kind tag .fault []

/-- An error of a write sets FAULT and ends the order with FAULT. -/
theorem Dev.faulted_endOrder (kind : Byte) (tag : Tag) (o : MemOrder) (d : Dev) : ∃ rep,
    (d.faultOn .error).endOrder kind tag o .error = Dev.responds kind tag .fault [] { d with report := rep } ∧
      Report.CauseSet .fault d.report rep := by
  obtain ⟨rep, set, spec⟩ := d.setCause_spec .fault
  exact ⟨rep, (Dev.endOrder_error ..).trans (by rw [Dev.faultOn, if_neg (by simp [replyOk]), set]), spec⟩

/-! ### The last response of a memory order (R177, R178) -/

section
variable {d : Dev} {t : Nat} {r : InFlight} {kind : Byte} {tag : Tag} {o : MemOrder} {reply : MemReply}

/-- The block after the response of a read was matched and an error counted. -/
theorem exec_remoteAccessDone_read (q : List Instr) (released : d.resetAsserted = false)
    (found : d.mem.record t = some r) (owner : r.owner = .remote .read)
    (doing : d.uplink.executor = .executing kind tag o) (fits : r.fits reply = true) :
    exec (.remoteAccessDone t reply) ⟨d, q⟩ =
      .next ⟨(Dev.countError r reply (d.dropRecord t)).endOrder kind tag o reply, q⟩ := by
  have taken := State.runReply_deliver (q := q) Owner.isLastAccess released found (by rw [owner]; rfl) fits
  rw [owner] at taken
  exact taken.trans (congrArg (fun x => Host.Outcome.next (State.mk x q))
    (Dev.remoteReply_read (by simpa using doing) reply))

/-- The block after the response of a write was matched and an error counted. -/
theorem exec_remoteAccessDone_write (q : List Instr) (released : d.resetAsserted = false)
    (found : d.mem.record t = some r) (owner : r.owner = .remote .write ∨ r.owner = .remote .maskWrite)
    (doing : d.uplink.executor = .executing kind tag o) (fits : r.fits reply = true) :
    exec (.remoteAccessDone t reply) ⟨d, q⟩ =
      .next ⟨((Dev.countError r reply (d.dropRecord t)).faultOn reply).endOrder kind tag o reply, q⟩ := by
  have doing : (Dev.countError r reply (d.dropRecord t)).uplink.executor = .executing kind tag o := by simpa using doing
  have taken := State.runReply_deliver (q := q) Owner.isLastAccess released found
    (by rcases owner with owner | owner <;> rw [owner] <;> rfl) fits
  refine taken.trans (congrArg (fun x => Host.Outcome.next (State.mk x q)) ?_)
  rcases owner with owner | owner <;> rw [owner]
  · exact Dev.remoteReply_write doing reply
  · exact Dev.remoteReply_maskWrite doing reply

end

/-- Settles O52: the response is matched, an error's handle becomes damage, and the order in hand ends. -/
theorem memoryOrdersEnd : Obligations.MemoryOrdersEnd := by
  intro d q t r kind tag n bytes released found e err ends moved fails
  have counted : Dev.countError r .error (d.dropRecord t) = err := Dev.countError_handle r (d.dropRecord t)
  have failing {o : MemOrder} (owner : r.owner = .remote .write ∨ r.owner = .remote .maskWrite)
      (doing : d.uplink.executor = .executing kind tag o) : fails := by
    obtain ⟨rep, ended, spec⟩ := Dev.faulted_endOrder kind tag o err
    refine ⟨rep, ?_, spec⟩
    rw [exec_remoteAccessDone_write q released found owner doing rfl, counted, ended]
  have readFails {o : MemOrder} (owner : r.owner = .remote .read)
      (doing : d.uplink.executor = .executing kind tag o) :
      exec (.remoteAccessDone t .error) ⟨d, q⟩ = ends err .fault [] := by
    rw [exec_remoteAccessDone_read q released found owner doing rfl, counted, Dev.endOrder_error]
  have answers (f : Dev) (st : Status) (data : List Byte) :
      Host.Outcome.next (ρ := Refusal) (φ := Fault) (State.mk (f.respond kind tag st data) q) = ends f st data :=
    congrArg (fun x => Host.Outcome.next (State.mk x q)) (f.respond_eq kind tag st data)
  refine ⟨fun owner reads sized => ?_, fun bare => ?_, fun owner writes => ?_,
    fun a value mask old owner writes doing => ⟨?_, failing (.inr owner) doing⟩⟩
  · have fits : r.fits (.data bytes) = true := by simp [InFlight.fits, reads, sized]
    refine ⟨fun doing => ⟨?_, readFails owner doing⟩, fun doing => ⟨?_, readFails owner doing⟩⟩
    · rw [exec_remoteAccessDone_read q released found owner doing fits, Dev.countError_data]
      exact answers e .done bytes
    · rw [exec_remoteAccessDone_read q released found owner doing fits, Dev.countError_data]
      exact answers (moved e) .done bytes
  · simp only [err, bare, Dev.handleDamage]
    cases d.plan.working <;> rfl
  · have fits : r.fits .done = true := writes
    refine ⟨fun doing => ⟨?_, failing (.inl owner) doing⟩, fun doing => ⟨?_, failing (.inl owner) doing⟩⟩
    · rw [exec_remoteAccessDone_write q released found (.inl owner) doing fits, Dev.countError_done]
      exact answers e .done []
    · rw [exec_remoteAccessDone_write q released found (.inl owner) doing fits, Dev.countError_done]
      exact answers (moved e) .done []
  · rw [exec_remoteAccessDone_write q released found (.inr owner) doing (reply := .done) writes, Dev.countError_done]
    exact answers e .done old

/-! ### The first reads (R179, R183) -/

theorem maskBytes_getD (old value mask : List Byte) (k : Nat) (values : value.length = old.length)
    (masks : mask.length = old.length) : (maskBytes old value mask).getD k 0 =
      ((value.getD k 0 &&& mask.getD k 0) ||| (old.getD k 0 &&& ~~~ mask.getD k 0)) := by
  induction old generalizing value mask k with
  | nil => simp_all [maskBytes]
  | cons o os ih =>
    obtain ⟨v, vs, rfl⟩ := List.exists_cons_of_length_eq_add_one values
    obtain ⟨m, ms, rfl⟩ := List.exists_cons_of_length_eq_add_one masks
    cases k with
    | zero => rfl
    | succ k => simpa [maskBytes] using ih vs ms k (by simpa using values) (by simpa using masks)

theorem length_maskBytes (old value mask : List Byte) (values : value.length = old.length)
    (masks : mask.length = old.length) : (maskBytes old value mask).length = old.length := by
  induction old generalizing value mask with
  | nil => simp [maskBytes]
  | cons o os ih =>
    obtain ⟨v, vs, rfl⟩ := List.exists_cons_of_length_eq_add_one values
    obtain ⟨m, ms, rfl⟩ := List.exists_cons_of_length_eq_add_one masks
    simpa [maskBytes] using ih vs ms (by simpa using values) (by simpa using masks)

/-- Bit by bit from the value where the mask is set, and from the old byte where it is clear. -/
theorem merged_bit (v m o : Byte) (b : Nat) : ((v &&& m) ||| (o &&& ~~~ m)).getLsbD b =
    if m.getLsbD b then v.getLsbD b else o.getLsbD b := by
  by_cases inside : b < 8
  · simp only [BitVec.getLsbD_or, BitVec.getLsbD_and, BitVec.getLsbD_not, inside, decide_true, Bool.true_and]
    cases m.getLsbD b <;> simp
  · simp [BitVec.getLsbD_of_ge, Nat.le_of_not_lt inside]

/-- The block after the response of a MASK-WRITE's read was matched and an error counted. -/
theorem exec_maskWriteReadDone {d : Dev} {t : Nat} {r : InFlight} {kind : Byte} {tag : Tag} {a : Nat}
    {value mask : List Byte} {old : Option (List Byte)} {reply : MemReply} (q : List Instr)
    (released : d.resetAsserted = false) (found : d.mem.record t = some r) (owner : r.owner = .remote .maskRead)
    (doing : d.uplink.executor = .executing kind tag (.maskWrite a value mask old)) (fits : r.fits reply = true) :
    exec (.maskWriteReadDone t reply) ⟨d, q⟩ =
      .next ⟨(Dev.countError r reply (d.dropRecord t)).maskReadReply kind tag a value mask reply, q⟩ := by
  have taken := State.runReply_deliver (q := q) Owner.isMaskRead released found (by rw [owner]; rfl) fits
  rw [owner] at taken
  exact taken.trans (congrArg (fun x => Host.Outcome.next (State.mk x q))
    (Dev.remoteReply_maskRead (by simpa using doing) reply))

/-- The block after the response of a seed read was matched and an error counted. -/
theorem exec_watchSeedDone {d : Dev} {t : Nat} {r : InFlight} {kind : Byte} {tag : Tag} {o : MemOrder}
    {reply : MemReply} (q : List Instr) (released : d.resetAsserted = false) (found : d.mem.record t = some r)
    (owner : r.owner = .remote .seed) (doing : d.uplink.executor = .executing kind tag o)
    (fits : r.fits reply = true) : exec (.watchSeedDone t reply) ⟨d, q⟩ =
      .next ⟨(Dev.countError r reply (d.dropRecord t)).seedReply kind tag o reply, q⟩ := by
  have taken := State.runReply_deliver (q := q) Owner.isSeed released found (by rw [owner]; rfl) fits
  rw [owner] at taken
  exact taken.trans (congrArg (fun x => Host.Outcome.next (State.mk x q))
    (Dev.remoteReply_seed (by simpa using doing) reply))

/-- The seed bytes arrive with no hit to judge (R183). -/
theorem Dev.installSeed_unhit {d : Dev} {sd : Seeding} (seeds : d.watch.seeding = some sd) (unhit : sd.hits = 0)
    (seed : List Byte) : d.installSeed seed =
      { d with watch := { table := d.watch.table.set sd.id (some (sd.entry seed)), seeding := none } } := by
  rw [Dev.installSeed, seeds]
  exact if_pos unhit

/-- The seed bytes arrive after hits: one is judged, as of the last one's grant (R183). -/
theorem Dev.installSeed_hit {d : Dev} {sd : Seeding} {time : HeadTime} (seeds : d.watch.seeding = some sd)
    (hit : sd.hits ≠ 0) (at_ : sd.hitTime = some time) (seed : List Byte) : d.installSeed seed =
      Dev.judgeHit sd.id (sd.entry seed) time
        { d with watch := { table := d.watch.table.set sd.id (some (sd.entry seed)), seeding := none } } := by
  rw [Dev.installSeed, seeds]
  refine (if_neg hit).trans ?_
  rw [at_]
  rfl

/-- Settles O53: the first read's response is matched, and its bytes are merged or become the entry. -/
theorem firstReadsEnd : Obligations.FirstReadsEnd := by
  constructor
  · intro d q t a r kind tag value mask old released found bare owner reads doing m
    refine ⟨fun sized values masks => ⟨maskBytes old value mask, length_maskBytes old value mask values masks,
      fun k b => by rw [maskBytes_getD old value mask k values masks, merged_bit], ?_⟩, ?_⟩
    · refine (exec_maskWriteReadDone q released found owner doing (by simp [InFlight.fits, reads, sized])).trans ?_
      rw [Dev.countError_data]
      rfl
    · refine (exec_maskWriteReadDone q released found owner doing rfl).trans ?_
      rw [Dev.countError_error bare]
      exact congrArg (fun x => Host.Outcome.next (State.mk x q)) (Dev.respond_eq ..)
  intro d q t r kind tag o sd seed released found bare owner reads sized knows isSet doing seeds known e put entry
    after ends run offers waits
  obtain ⟨wid, wa, wn, wmode, rfl⟩ := isSet
  have ran : run = ends (e.installSeed seed) .done := by
    have answer : (e.installSeed seed).respond kind tag .done [] = (e.installSeed seed).responds kind tag .done [] :=
      Dev.respond_eq ..
    refine (exec_watchSeedDone q released found owner doing (by simp [InFlight.fits, reads, sized])).trans ?_
    rw [Dev.countError_data]
    exact congrArg (fun x => Host.Outcome.next (State.mk x q)) answer
  have left (taken : Bool) : (sd.entry seed).afterOffer taken =
      if sd.mode = .once then none else some (entry (if taken then known else seed)) :=
    (sd.entry seed).afterOffer_eq taken
  let x : Dev := { e with watch := put (some (entry seed)) }
  have judged (time : HeadTime) (hit : sd.hits ≠ 0) (at_ : sd.hitTime = some time) :
      run = ends (x.judgeHit sd.id (sd.entry seed) time) .done :=
    ran.trans (congrArg (fun f => ends f .done) (Dev.installSeed_hit (d := e) seeds hit at_ seed))
  have again (y : Option WatchEntry) : x.watch.table.set sd.id y = d.watch.table.set sd.id y := List.set_set ..
  refine ⟨fun unhit => ?_, fun time hit at_ => ⟨fun quiet => ?_, fun offer wait => ?_, fun offer wait room => ?_,
    fun offer wait full => ?_⟩, ?_⟩
  · exact ran.trans (congrArg (fun f => ends f .done) (Dev.installSeed_unhit (d := e) seeds unhit seed))
  · rw [judged time hit at_, Dev.judgeHit_quiet (e := sd.entry seed) _ _ x quiet, Dev.setEntry, again] <;> rfl
  · rw [judged time hit at_, Dev.judgeHit_rewrites (d := x) (e := sd.entry seed) offer wait, left true, again] <;> rfl
  · rw [judged time hit at_, Dev.judgeHit_appends (d := x) (e := sd.entry seed) offer wait room, left true, again] <;> rfl
  · rw [judged time hit at_, Dev.judgeHit_drops (d := x) (e := sd.entry seed) offer wait full, left false, again]
  · refine (exec_watchSeedDone q released found owner doing rfl).trans ?_
    rw [Dev.countError_error bare]
    exact congrArg (fun x => Host.Outcome.next (State.mk x q)) (Dev.endOrder_error ..)

end Sys2Proof.Machine
end

section
/-! SUPPORT. Held entries (section 7.4, section 9.5) and drain writes (section 11.3): O55, O60. -/

namespace Sys2Proof.Machine

/-! ### The REPLAY-END of a request, and the next request (R138, R140) -/

/-- The block after the REPLAY-END of a request was admitted. -/
theorem Dev.finishRequest_eq (c : CurrentReq) (e : Entry) (d : Dev) : (d.enqueue e).finishRequest c = { d with
    ring := if c.marked then { d.ring with slots := d.ring.slots.modify c.slot fun x => { x with replay := false } }
      else d.ring
    replay := { d.replay with current := none }
    downlink := { d.downlink with ctrl := d.downlink.ctrl ++ [e] } } := by
  unfold Dev.finishRequest
  split
  · rfl
  · rfl

/-- A request started for the frame of a CLOSED slot enters SENDING. -/
theorem Dev.startRequest_closed {d : Dev} {r : ReplayReq} {s : Nat} {w : WorkingPlan} (kept : r.cancelled = false)
    (found : d.ring.lookup r.frame = some s) (closed : (d.ring.slot s).state = .closed)
    (working : d.plan.working = some w) : d.startRequest r = Dev.replayExamine { d with
      ring := { d.ring with slots := d.ring.slots.modify s fun x => { x with replay := true } }
      replay := { d.replay with current := some { req := r, stage := .sending, slot := s, marked := true
                                                  nextLine := r.first, lastLine := r.lastLine w.plan.height
                                                  linesSent := 0 } } } := by
  have height : (d.plan?.map (·.height)).getD 0 = w.plan.height := by simp [Dev.plan?, working]
  rw [Dev.startRequest, if_neg (by simp [kept]), found]
  refine (if_neg (by simp [closed])).trans ?_
  rw [Dev.enterSending, height]
  rfl

theorem Dev.startRequest_filling {d : Dev} {r : ReplayReq} {s : Nat} (kept : r.cancelled = false)
    (found : d.ring.lookup r.frame = some s) (filling : (d.ring.slot s).state = .filling) :
    d.startRequest r = d.setCurrent (some { req := r, stage := .waitingClose, slot := s, marked := false, nextLine := 0,
                                            lastLine := 0, linesSent := 0 }) := by
  rw [Dev.startRequest, if_neg (by simp [kept]), found]
  exact if_pos filling

theorem Dev.startRequest_gone {d : Dev} {r : ReplayReq} (kept : r.cancelled = false)
    (absent : d.ring.lookup r.frame = none) :
    d.startRequest r = d.setCurrent (some (.endedAtStart r .gone)) := by
  rw [Dev.startRequest, if_neg (by simp [kept]), absent]

theorem Dev.startRequest_cancelled {d : Dev} {r : ReplayReq} (flagged : r.cancelled = true) :
    d.startRequest r = d.setCurrent (some (.endedAtStart r .cancelled)) := if_pos flagged

/-- A request in SENDING or WAITING-CLOSE needs no settling. -/
theorem Dev.replaySettle_current {d : Dev} {c : CurrentReq} (current : d.replay.current = some c)
    (stage : c.stage = .waitingClose ∨ c.stage = .sending) : d.replaySettle = d :=
  Dev.replaySettle_stopped (by rcases stage with stage | stage <;> simp [ReplayReader.rounds, current, stage])

theorem Dev.replaySettle_idle {d : Dev} (none_ : d.replay.current = none) (empty : d.replay.queue = []) :
    d.replaySettle = d := Dev.replaySettle_stopped (by simp [ReplayReader.rounds, none_, empty])

/-- The first fetches begun, a request in SENDING needs no settling. -/
theorem Dev.replaySettle_examined {d : Dev} {c : CurrentReq} (current : d.replay.current = some c)
    (stage : c.stage = .sending) : d.replayExamine.replaySettle = d.replayExamine :=
  Dev.replaySettle_stopped (by rw [Dev.replayExamine_rounds]; simp [ReplayReader.rounds, current, stage])

/-- Settles O55: each held entry is offered, and the reader settles one request after the other. -/
theorem heldEntriesAreOffered : Obligations.HeldEntriesAreOffered := by
  intro d q released run
  have settles (e : Dev) (h : e.resetAsserted = false) :
      exec .replayEndOffer ⟨e, q⟩ = .next ⟨e.replaySettle, q⟩ := State.run_of_released _ h
  have ran : run = .next ⟨d.replaySettle, q⟩ := settles d released
  refine ⟨fun kind tag st data holds => ?_, fun c st current ends => ?_, fun c current stage => ?_,
    fun none_ empty => ?_, fun r rest none_ queue => ?_⟩
  · refine (State.run_of_released _ released).trans (congrArg (fun x => Host.Outcome.next (State.mk x q)) ?_)
    have admits : d.admits (.response kind tag st data) = decide (d.downlink.ctrl.length < 64) := by
      simp only [Dev.admits, Entry.threshold, Downlink.free]
      congr 1
      exact propext (by omega)
    simp only [Dev.reofferResponse, holds, admits, decide_eq_true_eq] <;> rfl
  · intro freed
    refine ⟨fun full => ?_, fun room => ⟨?_, fun last => ?_⟩⟩
    · rw [ran, Dev.replaySettle_ending current ends, if_neg (by omega)]
    · rw [ran, Dev.replaySettle_ending current ends, if_pos room, Dev.finishRequest_eq, settles freed released] <;> rfl
    · rw [ran, Dev.replaySettle_ending current ends, if_pos room, Dev.finishRequest_eq]
      exact congrArg (fun x => Host.Outcome.next (State.mk x q)) (Dev.replaySettle_idle (d := freed) rfl last)
  · rw [ran, Dev.replaySettle_current current stage]
  · rw [ran, Dev.replaySettle_idle none_ empty]
  · intro current idle ending
    let next : Dev := { d with replay := { d.replay with queue := rest } }
    have started : run = .next ⟨(next.startRequest r).replaySettle, q⟩ := by
      rw [ran, Dev.replaySettle_starting none_ queue]
    refine ⟨fun flagged => ⟨0, 0, 0, ?_⟩, fun kept absent => ⟨0, 0, 0, ?_⟩, fun s kept found => ⟨fun filling => ⟨0, 0, ?_⟩,
      fun w closed working => ?_⟩⟩
    · rw [started, Dev.startRequest_cancelled flagged]
      exact (settles (idle (.ending .cancelled) 0 0 0) released).symm
    · rw [started, Dev.startRequest_gone (d := next) kept absent]
      exact (settles (idle (.ending .gone) 0 0 0) released).symm
    · rw [started, Dev.startRequest_filling (d := next) kept found filling]
      exact congrArg (fun x => Host.Outcome.next (State.mk x q))
        (Dev.replaySettle_current (d := idle .waitingClose s 0 0) rfl (.inl rfl))
    · rw [started, Dev.startRequest_closed (d := next) kept found closed working, Dev.replaySettle_examined rfl rfl]
      exact congrArg (fun x => Host.Outcome.next (State.mk x q)) (Dev.fetchReplay_eq (by exact released)).symm

/-! ### The drain write (R189, R190, R193) -/

theorem Feed.examine_of_begins {f : Feed} (free : f.drain = .none) (ring : f.start < f.stop) (some_ : 1 ≤ f.drainLen) :
    f.examine = { f with drain := .presented f.producer f.drainLen } :=
  if_pos (by simp [free, f.inForce_iff, ring, some_])

theorem Feed.examine_of_stays {f : Feed} (stays : f.drain ≠ .none ∨ f.stop ≤ f.start ∨ f.drainLen = 0) :
    f.examine = f := by
  refine if_neg fun begins => ?_
  simp only [Bool.and_eq_true, decide_eq_true_eq, f.inForce_iff] at begins
  obtain ⟨⟨free, ring⟩, some_⟩ := begins
  rcases stays with busy | bare | none_
  · exact busy free
  · omega
  · omega

/-- A producer value handed on makes no record due and calls none off. -/
theorem Dev.handProducer_recordDue (v : Nat) (d : Dev) :
    (d.handProducer v).report.recordDue = d.report.recordDue := by
  unfold Dev.handProducer
  dsimp only
  split <;> simp

/-- The block after the response of a drain write was matched and an error counted. -/
theorem exec_drainWriteDone {d : Dev} {t n : Nat} {r : InFlight} {stale : Bool} {reply : MemReply} (q : List Instr)
    (released : d.resetAsserted = false) (found : d.mem.record t = some r) (owner : r.owner = .feed)
    (drains : d.feed.drain = .granted n stale) (fits : r.fits reply = true) : exec (.drainWriteDone t reply) ⟨d, q⟩ =
      .next ⟨((Dev.countError r reply (d.dropRecord t)).drainResponse n stale (replyOk reply)).faultOn reply, q⟩ := by
  have taken := State.runReply_deliver (q := q) Owner.isFeed released found (by rw [owner]; rfl) fits
  have same : (Dev.countError r reply (d.dropRecord t)).feed.drain = .granted n stale := by simpa using drains
  rw [owner] at taken
  refine taken.trans (congrArg (fun x => Host.Outcome.next (State.mk x q)) ?_)
  rw [Dev.toOwner, Dev.feedReply, same]

/-- Settles O60: the length is the least of the four limits, and the response moves P, or leaves it. -/
theorem drainWrites : Obligations.DrainWrites := by
  intro d q t n r released size len e p
  have begins : exec .drainWriteBegin ⟨d, q⟩ = .next ⟨d.drainExamine, q⟩ := State.run_of_released _ released
  have afterwards (x : Dev) (h : x.resetAsserted = false) : x.thenDo .drainWriteBegin = x.drainExamine :=
    Dev.thenDo_drain h
  refine ⟨fun free ring some_ => ?_, fun stays => ?_, fun found bare owner writes => ⟨fun drains => ?_, fun drains => ?_,
    fun stale drains => ?_⟩⟩
  · exact begins.trans (congrArg (fun f => Host.Outcome.next (State.mk { d with feed := f } q))
      (Feed.examine_of_begins free ring some_))
  · exact begins.trans (congrArg (fun f => Host.Outcome.next (State.mk { d with feed := f } q))
      (Feed.examine_of_stays stays))
  · let x : Dev := { e with feed := { e.feed with producer := p } }
    obtain ⟨rep, handed, producer, causes, writing, wanted⟩ := Dev.handProducer_spec p x
    have due := Dev.handProducer_recordDue p x
    rw [handed] at due
    refine ⟨rep, ?_, producer, wanted, causes, writing, due⟩
    rw [exec_drainWriteDone q released found owner drains (reply := .done) writes, Dev.countError_done,
      afterwards { x with report := rep } released, ← handed]
    rfl
  · rw [exec_drainWriteDone q released found owner drains (reply := .done) writes, Dev.countError_done,
      afterwards e released]
    rfl
  · let x : Dev := { e with counters := { d.counters with memoryErrors := satInc d.counters.memoryErrors } }
    obtain ⟨rep, set, spec⟩ := x.drainExamine.setCause_spec .fault
    refine ⟨rep, ?_, spec⟩
    rw [exec_drainWriteDone q released found owner drains rfl, Dev.countError_error bare,
      afterwards { x with report := rep } released]
    exact congrArg (fun x => Host.Outcome.next (State.mk x q)) set

end Sys2Proof.Machine
end

section
/-! SUPPORT. Fetches (section 7.1, sections 7.3, 7.4): O56, O57. -/

namespace Sys2Proof.Machine

/-! ### The buffer of a fetch (R120, R121, log 13) -/

theorem Fetcher.fetching_iff (f : Fetcher) : f.fetching = true ↔
    (f.bufA.state = .fetching ∧ f.bufA.discard = false) ∨ (f.bufB.state = .fetching ∧ f.bufB.discard = false) := by
  have one (x : LineBuf) : (x.occupied && decide (x.state = .fetching)) = true ↔
      x.state = .fetching ∧ x.discard = false := by
    simp only [LineBuf.occupied, Bool.and_eq_true, decide_eq_true_eq, Bool.not_eq_true']
    exact ⟨fun ⟨⟨_, kept⟩, fetches⟩ => ⟨fetches, kept⟩, fun ⟨fetches, kept⟩ => ⟨⟨by simp [fetches], kept⟩, fetches⟩⟩
  rw [Fetcher.fetching, Bool.or_eq_true, one, one]

/-- The first EMPTY buffer takes the fetch while no line is being fetched. -/
theorem Fetcher.vacancy_of_vacant {f : Fetcher} {i : BufId} (vacant : (f.bufA.state = .empty ∧ i = .a) ∨
      (f.bufA.state ≠ .empty ∧ f.bufB.state = .empty ∧ i = .b)) (quiet : f.fetching = false) :
    f.vacancy = some i := by
  rw [Fetcher.vacancy, if_neg (by simp [quiet]), Fetcher.emptyBuf]
  rcases vacant with ⟨first, rfl⟩ | ⟨taken, second, rfl⟩
  · exact if_pos first
  · rw [if_neg taken, if_pos second]

theorem Fetcher.vacancy_of_busy {f : Fetcher} (busy : (f.bufA.state = .fetching ∧ f.bufA.discard = false) ∨
      (f.bufB.state = .fetching ∧ f.bufB.discard = false) ∨ (f.bufA.state ≠ .empty ∧ f.bufB.state ≠ .empty)) :
    f.vacancy = none := by
  rw [Fetcher.vacancy]
  split
  · rfl
  · next quiet =>
    rcases busy with fetches | fetches | ⟨first, second⟩
    · exact absurd (f.fetching_iff.mpr (.inl fetches)) quiet
    · exact absurd (f.fetching_iff.mpr (.inr fetches)) quiet
    · rw [Fetcher.emptyBuf, if_neg first, if_neg second]

/-! ### The beginning of a fetch (R121, R128, R131 to R133, R139) -/

/-- A live fetch that the conditions of R131 let begin: of the line that the live order chooses. -/
theorem Dev.liveBegin?_of_vacancy {d : Dev} {w : WorkingPlan} {s : Nat} {i : BufId} (working : d.plan.working = some w)
    (active : d.live.active = some s) (vacancy : d.live.fetcher.vacancy = some i)
    (left : d.live.handed < w.plan.height) :
    d.liveBegin? = (d.liveChoice w.plan s).map fun c => { d with live := { d.live.advance w.plan c.2 with
      handed := d.live.handed + 1
      fetcher := d.live.fetcher.begin_ w.plan (d.ring.slot s) s c.1 (d.live.handed + 1 = w.plan.height) i } } := by
  have planned : d.plan? = some w.plan := by simp [Dev.plan?, working]
  rw [Dev.liveBegin?, planned, active, vacancy]
  refine (if_pos left).trans ?_
  cases d.liveChoice w.plan s <;> rfl

theorem Dev.liveBegin?_eq_none {d : Dev} {w : WorkingPlan} (working : d.plan.working = some w)
    (stays : d.live.active = none ∨ d.live.fetcher.vacancy = none ∨ w.plan.height ≤ d.live.handed) :
    d.liveBegin? = none := by
  have planned : d.plan? = some w.plan := by simp [Dev.plan?, working]
  rw [Dev.liveBegin?, planned]
  split
  · next s i named active vacancy =>
    rcases stays with stays | stays | stays
    · simp [stays] at active
    · simp [stays] at vacancy
    · cases named
      exact if_neg (by omega)
  · rfl

theorem Dev.replayBegin?_of_vacancy {d : Dev} {w : WorkingPlan} {c : CurrentReq} {i : BufId}
    (working : d.plan.working = some w) (current : d.replay.current = some c)
    (vacancy : d.replay.fetcher.vacancy = some i) :
    d.replayBegin? = if d.replay.mayFetch c then some { d with replay := { d.replay with
        current := some { c with nextLine := c.nextLine + 1 }
        credit := if c.req.paced then d.replay.credit - 1 else d.replay.credit
        fetcher := d.replay.fetcher.begin_ w.plan (d.ring.slot c.slot) c.slot c.nextLine (c.nextLine = c.lastLine) i } }
      else none := by
  have planned : d.plan? = some w.plan := by simp [Dev.plan?, working]
  rw [Dev.replayBegin?, planned, current, vacancy]

theorem Dev.replayBegin?_eq_none {d : Dev}
    (stays : d.replay.fetcher.vacancy = none ∨ ∀ c, d.replay.current = some c → d.replay.mayFetch c = false) :
    d.replayBegin? = none := by
  rw [Dev.replayBegin?]
  split
  · next c i planned current vacancy =>
    rcases stays with stays | stays
    · simp [stays] at vacancy
    · exact if_neg (by simp [stays c current])
  · rfl

theorem ReplayReader.mayFetch_iff (r : ReplayReader) (c : CurrentReq) : r.mayFetch c = true ↔
    c.stage = .sending ∧ c.nextLine ≤ c.lastLine ∧ (c.req.paced = false ∨ 1 ≤ r.credit) := by
  simp [ReplayReader.mayFetch, and_assoc]

/-- Under TEST a buffer is READY at once, with nothing to fetch (R128). -/
theorem Fetcher.begin_test {p : Plan} (test : p.source = .test) (f : Fetcher) (x : Slot) (s y : Nat) (last : Bool)
    (i : BufId) : f.begin_ p x s y last i = { f.setBuf i
      { state := .ready, slot := s, frame := x.frame, line := y, concealed := false, test := true, last := last
        nextCell := 0, discard := false, outstanding := 0, todo := [], data := p.testLine x.frame y } with
      order := f.order ++ [i] } := by
  have buffer : p.beginBuf x s y last =
      { state := .ready, slot := s, frame := x.frame, line := y, concealed := false, test := true, last := last
        nextCell := 0, discard := false, outstanding := 0, todo := [], data := p.testLine x.frame y } := by
    rw [Plan.beginBuf, test] <;> rfl
  rw [Fetcher.begin_, buffer]
  cases i <;> rfl

/-- Settles O56: the buffer is the vacant one, the line the live order's or the request's. -/
theorem fetchesBegin : Obligations.FetchesBegin := by
  intro d q w released working vacant busy
  have live (e : Dev) (h : d.liveBegin?.getD d = e) : exec .liveFetchBegin ⟨d, q⟩ = .next ⟨e, q⟩ :=
    h ▸ State.run_of_released _ released
  have replay (e : Dev) (h : d.replayBegin?.getD d = e) : exec .replayFetchBegin ⟨d, q⟩ = .next ⟨e, q⟩ :=
    h ▸ State.run_of_released _ released
  have vacancy {f : Fetcher} {i : BufId} (free : vacant f i) (quiet : ¬busy f) : f.vacancy = some i := by
    refine Fetcher.vacancy_of_vacant free (Bool.not_eq_true _ ▸ fun fetches => quiet ?_)
    rcases f.fetching_iff.mp fetches with fetches | fetches
    · exact .inl fetches
    · exact .inr (.inl fetches)
  refine ⟨fun s i active free quiet left => ?_, fun stays => live d ?_, fun c i current free quiet sends =>
    ⟨fun lines credit => replay _ ?_, fun stays => replay d ?_⟩, fun stays => replay d ?_⟩
  · intro begun
    have begins := Dev.liveBegin?_of_vacancy working active (vacancy free quiet) left
    refine ⟨fun raster test => live _ ?_, fun raster sensor => live _ ?_, fun arrival => live _ ?_⟩
    · rw [begins]
      simp only [Dev.liveChoice, raster, Dev.liveMaySend, test, decide_true, Bool.true_or, if_true, Option.map_some,
        Option.getD_some, LiveReader.advance, Fetcher.begin_test test]
      rfl
    · rw [begins]
      have may : d.liveMaySend w.plan s d.live.rasterPtr = d.sendable w.plan s d.live.rasterPtr := by
        simp [Dev.liveMaySend, sensor]
      simp only [Dev.liveChoice, raster, may]
      split
      · simp only [Option.map_some, Option.getD_some, LiveReader.advance, raster] <;> rfl
      · rfl
    · rw [begins]
      simp only [Dev.liveChoice, arrival, LiveReader.advance]
      cases d.arrivalChoice w.plan s <;> rfl
  · rw [Dev.liveBegin?_eq_none working]
    · rfl
    · rcases stays with stays | stays | stays
      · exact .inl stays
      · exact .inr (.inl (Fetcher.vacancy_of_busy stays))
      · exact .inr (.inr stays)
  · rw [Dev.replayBegin?_of_vacancy working current (vacancy free quiet),
      if_pos ((ReplayReader.mayFetch_iff ..).mpr ⟨sends, lines, credit⟩)]
    rfl
  · rw [Dev.replayBegin?_of_vacancy working current (vacancy free quiet), if_neg]
    · rfl
    · rw [ReplayReader.mayFetch_iff]
      rintro ⟨-, lines, credit⟩
      rcases stays with stays | ⟨paced, empty⟩
      · omega
      · rcases credit with free | some_
        · simp [paced] at free
        · omega
  · rw [Dev.replayBegin?_eq_none]
    · rfl
    · rcases stays with stays | stays
      · exact .inl (Fetcher.vacancy_of_busy stays)
      · refine .inr fun c current => Bool.not_eq_true _ ▸ fun may => ?_
        exact stays c current ((ReplayReader.mayFetch_iff ..).mp may).1

/-! ### The responses of a fetch (R123, R125) -/

/-- The fetch is over with this response: nothing is left to present, none is presented, and this was the last one out. -/
def Fetcher.lastResponse (f : Fetcher) (i : BufId) : Bool :=
  (f.buf i).todo.isEmpty && (f.buf i).outstanding = 1 && f.req.all fun g => g.1 ≠ i

theorem Fetcher.nonePresented_eq (f : Fetcher) (i : BufId) : f.nonePresented i = f.req.all fun g => g.1 ≠ i := by
  unfold Fetcher.nonePresented
  cases f.req <;> rfl

/-- A response to a fetch that goes on: its bytes, or zeros and the concealed flag, and READY with the last one. -/
theorem Fetcher.respond_fetching {f : Fetcher} {i : BufId} (fetches : (f.buf i).state = .fetching)
    (kept : (f.buf i).discard = false) (out : 1 ≤ (f.buf i).outstanding) (q : FetchReq) (data : Option (List Byte)) :
    f.respond i q data = f.setBuf i { f.buf i with
      outstanding := (f.buf i).outstanding - 1
      concealed := (f.buf i).concealed || data.isNone
      data := q.fill q.off (data.getD (List.replicate q.len 0)) (f.buf i).data
      state := if f.lastResponse i then .ready else .fetching } := by
  have one : (f.buf i).outstanding - 1 = 0 ↔ (f.buf i).outstanding = 1 := by omega
  rw [Fetcher.respond, if_neg (by simp [kept]), Fetcher.endFetch]
  simp only [Fetcher.buf_setBuf, Fetcher.setBuf_req, Fetcher.setBuf_setBuf, fetches, kept, one, decide_true,
    Bool.not_false, Bool.true_and, Fetcher.nonePresented_eq]
  have same : (((f.buf i).todo.isEmpty && f.req.all fun g => decide (g.1 ≠ i)) &&
      decide ((f.buf i).outstanding = 1)) = f.lastResponse i := by
    rw [Fetcher.lastResponse, Bool.and_right_comm]
  rw [same]
  split <;> rfl

/-- A response to a discarded fetch: its bytes are dropped, and the last one empties the buffer. -/
theorem Fetcher.respond_discarded {f : Fetcher} {i : BufId} (dropped : (f.buf i).discard = true) (q : FetchReq)
    (data : Option (List Byte)) : f.respond i q data = f.setBuf i
      (if (f.buf i).outstanding ≤ 1 then .vacant else { f.buf i with outstanding := (f.buf i).outstanding - 1 }) := by
  rw [Fetcher.respond, if_pos dropped]
  split <;> rfl

/-- The block after the response of a fetch was matched and an error counted. -/
theorem exec_lineFetchResponse {d : Dev} {t : Nat} {r : InFlight} {rd : ReaderId} {i : BufId} {f : FetchReq}
    {reply : MemReply} (q : List Instr) (released : d.resetAsserted = false) (found : d.mem.record t = some r)
    (owner : r.owner = .fetch rd i f) (fits : r.fits reply = true) : exec (.lineFetchResponse t reply) ⟨d, q⟩ =
      .next ⟨(Dev.countError r reply (d.dropRecord t)).fetchResponse rd i f (replyBytes reply), q⟩ := by
  have taken := State.runReply_deliver (q := q) Owner.isFetch released found (by rw [owner]; rfl) fits
  rw [owner] at taken
  exact taken

theorem Dev.liveExamine_idle {d : Dev} (idle : d.plan.working = none ∨ d.live.active = none) : d.liveExamine = d := by
  have none_ : d.liveBegin? = none := by
    rw [Dev.liveBegin?]
    split
    · next planned active _ =>
      rcases idle with idle | idle
      · simp [Dev.plan?, idle] at planned
      · simp [idle] at active
    · rfl
  rw [Dev.liveExamine, none_]

theorem Dev.replayExamine_idle {d : Dev} (idle : d.plan.working = none ∨ d.replay.current = none) :
    d.replayExamine = d := by
  have none_ : d.replayBegin? = none := by
    rw [Dev.replayBegin?]
    split
    · next planned current _ =>
      rcases idle with idle | idle
      · simp [Dev.plan?, idle] at planned
      · simp [idle] at current
    · rfl
  rw [Dev.replayExamine, none_]

/-- Settles O57: the response is matched, the buffer takes or drops it, and the reader looks for lines. -/
theorem fetchResponsesFillLines : Obligations.FetchResponsesFillLines := by
  intro d q t r rd i f bytes released found bare owner reads sized x m err put last dropped
  have ran {reply : MemReply} {y : LineBuf} {c : Counters} (fits : r.fits reply = true)
      (counts : Dev.countError r reply (d.dropRecord t) = { d with mem := m, counters := c })
      (does : (d.fetcher rd).respond i f (replyBytes reply) = (d.fetcher rd).setBuf i y) :
      exec (.lineFetchResponse t reply) ⟨d, q⟩ = .next ⟨put c y, q⟩ := by
    refine (exec_lineFetchResponse q released found owner fits).trans
      (congrArg (fun e => Host.Outcome.next (State.mk e q)) ?_)
    rw [counts]
    cases rd with
    | live =>
      refine Eq.trans ?_ (Dev.fetchLive_eq (by exact released)).symm
      exact congrArg (fun g => Dev.liveExamine
        { d with mem := m, counters := c, live := { d.live with fetcher := g } }) does
    | replay =>
      refine Eq.trans ?_ (Dev.fetchReplay_eq (by exact released)).symm
      exact congrArg (fun g => Dev.replayExamine
        { d with mem := m, counters := c, replay := { d.replay with fetcher := g } }) does
  have data : r.fits (.data bytes) = true := by simp [InFlight.fits, reads, sized]
  have counted := Dev.countError_error bare (d.dropRecord t)
  refine ⟨fun fetches kept out => ⟨ran data (Dev.countError_data ..) ?_, ran rfl counted ?_⟩,
    fun _ discards => ⟨ran data (Dev.countError_data ..) ?_, ran rfl counted ?_⟩,
    fun e up => ⟨fun idle => ?_, fun idle => ?_⟩⟩
  · rw [Fetcher.respond_fetching fetches kept out]
    simp only [replyBytes, Option.isNone_some, Bool.or_false, Option.getD_some] <;> rfl
  · rw [Fetcher.respond_fetching fetches kept out]
    simp only [replyBytes, Option.isNone_none, Bool.or_true, Option.getD_none] <;> rfl
  · exact Fetcher.respond_discarded discards ..
  · exact Fetcher.respond_discarded discards ..
  · rw [Dev.fetchLive_eq up, Dev.liveExamine_idle idle]
  · rw [Dev.fetchReplay_eq up, Dev.replayExamine_idle idle]

end Sys2Proof.Machine
end

section
/-! SUPPORT. Uplink frames (chapter 9): O42, O43, O44. -/

namespace Sys2Proof.Machine

/-! ### The lock (R162, R163) -/

/-- The lock state at a bad or missing frame that does not lose the lock. -/
theorem Dev.lockBad_short {d : Dev} (short : d.uplink.locked = false ∨ d.uplink.badRun < 15) :
    d.lockBad = { d with uplink := if d.uplink.locked then { d.uplink with badRun := d.uplink.badRun + 1 }
      else { d.uplink with goodRun := 0 } } := by
  unfold Dev.lockBad
  split
  · next locked =>
    have few : d.uplink.badRun < 15 := short.resolve_left (by simp [locked])
    rw [if_neg (by omega)] <;> rfl
  · rfl

/-- The sixteenth bad or missing frame in LOCKED loses the lock. -/
theorem Dev.lockBad_lost {d : Dev} (locked : d.uplink.locked = true) (many : 15 ≤ d.uplink.badRun) :
    ∃ rep, d.lockBad = { d with
      uplink := { d.uplink with locked := false, goodRun := 0, badRun := 0, lastSeq := none }
      replay := { d.replay with credit := 0 }
      report := rep } ∧ Report.CauseSet .link d.report rep := by
  obtain ⟨rep, set, spec⟩ := Dev.setCause_spec .link { d with
    uplink := { d.uplink with locked := false, goodRun := 0, badRun := 0, lastSeq := none }
    replay := { d.replay with credit := 0 } }
  refine ⟨rep, ?_, spec⟩
  rw [Dev.lockBad, if_pos locked, if_pos (by omega)]
  exact set

/-- Settles O42: the times are set, and the lock moves as at a bad frame. -/
theorem frameStartsAndMissingFrames : Obligations.FrameStartsAndMissingFrames := by
  intro d q released short bad u
  have starts : exec .uplinkFrameStart ⟨d, q⟩ = .next ⟨d.startFrame, q⟩ := State.run_of_released _ released
  refine ⟨fun idle => ?_, fun gathers few => ?_, fun due set past => ?_⟩
  · rw [starts, Dev.startFrame, idle]
    rfl
  · let x : Dev := { d with counters := { d.counters with badFrames := satInc d.counters.badFrames }, uplink := u }
    have moved : x.lockBad = { x with uplink := bad u } := Dev.lockBad_short (d := x) few
    rw [starts, Dev.startFrame]
    exact (congrArg (fun e => Host.Outcome.next (State.mk e q)) ((if_pos (Option.isSome_iff_ne_none.mpr gathers)).trans moved))
  · intro c v
    let x : Dev := { d with counters := c, uplink := v }
    have ran : exec .missingFrameExpiry ⟨d, q⟩ = .next ⟨x.lockBad, q⟩ := by
      refine (State.run_of_released _ released).trans (congrArg (fun e => Host.Outcome.next (State.mk e q)) ?_)
      rw [Dev.missingDue, set]
      exact if_pos past
    refine ⟨fun few => ?_, fun many => ?_⟩
    · rw [ran, Dev.lockBad_short (d := x) few]
    · obtain ⟨locked, many⟩ : d.uplink.locked = true ∧ 15 ≤ d.uplink.badRun := by
        simpa only [short, not_or, Bool.not_eq_false, Nat.not_lt] using many
      obtain ⟨rep, lost, spec⟩ := Dev.lockBad_lost (d := x) locked many
      exact ⟨rep, by rw [ran, lost], spec⟩

/-! ### The orders of a frame (R165 to R169) -/

/-- An order at its place in the frame: skipped and counted, or handled. -/
def Dev.judgeOrder (first : Bool) (t : HeadTime) (o : Byte × List Byte) (d : Dev) : Dev :=
  if orderLengthOk o.1.toNat o.2.length then d.handleOrder first t { kind := o.1, body := o.2 }
  else d.count fun c => { c with unknownOrders := satInc c.unknownOrders }

/-- The orders of a frame, each on what the one before left. -/
def Dev.judgeOrders (t : HeadTime) : Bool → List (Byte × List Byte) → Dev → Dev
  | _, [], d => d
  | first, o :: os, d => Dev.judgeOrders t false os (d.judgeOrder first t o)

/-- The bytes of orders in the order area. -/
def orderBytes (orders : List (Byte × List Byte)) : List Byte :=
  orders.flatMap fun o => o.1 :: BitVec.ofNat 8 o.2.length :: o.2

theorem length_orderBytes (orders : List (Byte × List Byte)) : 2 * orders.length ≤ (orderBytes orders).length := by
  induction orders with
  | nil => exact Nat.zero_le _
  | cons o os ih =>
    simp only [orderBytes, List.flatMap_cons, List.length_append, List.length_cons] at ih ⊢
    omega

/-- Parsing takes the orders one after another. -/
theorem Dev.parse_orders (t : HeadTime) (n : Nat) (rest : List Byte) (orders : List (Byte × List Byte)) :
    ∀ (first : Bool) (d : Dev), (∀ o ∈ orders, o.1 ≠ 0 ∧ o.2.length < 256) →
      Dev.parse t (orders.length + n) first (orderBytes orders ++ rest) d =
        Dev.parse t n (first && orders.isEmpty) rest (d.judgeOrders t first orders) := by
  induction orders with
  | nil =>
    intro first d _
    simp [orderBytes, Dev.judgeOrders]
  | cons o os ih =>
    intro first d formed
    obtain ⟨⟨kind, short⟩, formed⟩ := List.forall_mem_cons.mp formed
    have size : (BitVec.ofNat 8 o.2.length).toNat = o.2.length := by
      rw [BitVec.toNat_ofNat]
      exact Nat.mod_eq_of_lt short
    have bytes : orderBytes (o :: os) ++ rest =
        o.1 :: BitVec.ofNat 8 o.2.length :: (o.2 ++ (orderBytes os ++ rest)) := by
      simp [orderBytes]
    rw [bytes, List.length_cons, Nat.add_right_comm, Dev.parse, if_neg kind, if_neg (by simp [size]), size,
      List.drop_left, List.take_left, ih false _ formed]
    simp [Dev.judgeOrders, Dev.judgeOrder]

/-- Kind 0 or the end of the area ends the frame. -/
theorem Dev.parse_ended (t : HeadTime) (n : Nat) (first : Bool) {rest : List Byte} (d : Dev)
    (ended : rest = [] ∨ rest.head? = some 0) : Dev.parse t n first rest d = d := by
  rcases n with _ | n
  · rfl
  · rcases rest with _ | ⟨k, _ | ⟨len, tail⟩⟩
    · rfl
    · obtain rfl : k = 0 := by simpa using ended
      rfl
    · obtain rfl : k = 0 := by simpa using ended
      rfl

/-- An order that would run past the end counts an overrun. -/
theorem Dev.parse_overrun (t : HeadTime) (n : Nat) (first : Bool) {rest : List Byte} {k : Byte} (d : Dev) (kind : k ≠ 0)
    (past : rest = [k] ∨ ∃ len tail, rest = k :: len :: tail ∧ tail.length < len.toNat) :
    Dev.parse t (n + 1) first rest d = d.count fun c => { c with overrunFrames := satInc c.overrunFrames } := by
  rcases past with rfl | ⟨len, tail, rfl, past⟩
  · rw [Dev.parse, if_neg kind]
  · rw [Dev.parse, if_neg kind, if_pos past]

end Sys2Proof.Machine
end

section
/-! SUPPORT. Uplink frames taken (sections 9.1 to 9.5): O43, O44. -/

namespace Sys2Proof.Machine

/-- The RESTART flag is bit 0 of the third byte (R197). -/
theorem frameRestart_eq {bytes : List Byte} (sized : bytes.length = 256) :
    frameRestart bytes = (bytes.getD 2 0).getLsbD 0 := by
  obtain ⟨a, b, c, e, rest, rfl⟩ : ∃ a b c e rest, bytes = a :: b :: c :: e :: rest := by
    match bytes, sized with
    | a :: b :: c :: e :: rest, _ => exact ⟨a, b, c, e, rest, rfl⟩
  have bit : (c.toNat + 256 * (e.toNat + 256 * 0)).testBit 0 = c.getLsbD 0 := by
    simp only [Nat.testBit_zero, BitVec.getLsbD]
    congr 1
    simp only [eq_iff_iff]
    omega
  exact bit

section
variable {d : Dev} {bytes : List Byte} {t₀ : HeadTime}

/-- A frame that the CRC refuses is counted, and the lock moves. -/
theorem exec_uplinkFrame_bad (q : List Instr) (released : d.resetAsserted = false)
    (gathers : d.uplink.frameStart = some t₀) (sized : bytes.length = 256) (bad : frameGood bytes = false) :
    exec (.uplinkFrame bytes) ⟨d, q⟩ = .next ⟨Dev.lockBad { d with
      counters := { d.counters with badFrames := satInc d.counters.badFrames }
      uplink := { d.uplink with frameStart := none } }, q⟩ := by
  refine (State.run_of_released _ released).trans (congrArg (fun e => Host.Outcome.next (State.mk e q)) ?_)
  rw [Dev.frameEvent, gathers]
  exact (if_pos sized).trans (if_neg (by simp [bad]))

theorem exec_uplinkFrame_good (q : List Instr) (released : d.resetAsserted = false)
    (gathers : d.uplink.frameStart = some t₀) (sized : bytes.length = 256) (good : frameGood bytes = true) :
    exec (.uplinkFrame bytes) ⟨d, q⟩ = .next ⟨Dev.goodFrame t₀ bytes
      { d with uplink := { d.uplink with frameStart := none } }, q⟩ := by
  refine (State.run_of_released _ released).trans (congrArg (fun e => Host.Outcome.next (State.mk e q)) ?_)
  rw [Dev.frameEvent, gathers]
  exact (if_pos sized).trans (if_pos good)

end

/-- A good frame that leaves the receiver SEARCHING moves the run and the last sequence. -/
theorem Dev.goodFrame_searching {d : Dev} (searches : d.uplink.locked = false) (few : d.uplink.goodRun < 3)
    (t : HeadTime) (bytes : List Byte) : d.goodFrame t bytes =
      { d with uplink := { d.uplink with goodRun := d.uplink.goodRun + 1, lastSeq := some (frameSeq bytes) } } := by
  have moved : d.uplink.good = { d.uplink with goodRun := d.uplink.goodRun + 1 } := by
    rw [Uplink.good, if_neg (by simp [searches]), if_neg (by omega)]
  simp [Dev.goodFrame, Dev.updUplink, moved, searches]

/-- The fourth good frame in a row is taken as one of LOCKED. -/
theorem Dev.goodFrame_locking {d : Dev} (searches : d.uplink.locked = false) (many : 3 ≤ d.uplink.goodRun)
    (t : HeadTime) (bytes : List Byte) : d.goodFrame t bytes =
      Dev.goodFrame t bytes { d with uplink := { d.uplink with locked := true, goodRun := 4, badRun := 0 } } := by
  have moved : d.uplink.good = { d.uplink with locked := true, goodRun := 4, badRun := 0 } := by
    rw [Uplink.good, if_neg (by simp [searches]), if_pos (by omega)]
  have same : Uplink.good { d.uplink with locked := true, goodRun := 4, badRun := 0 } =
      { d.uplink with locked := true, goodRun := 4, badRun := 0 } := rfl
  rw [Dev.goodFrame, Dev.goodFrame]
  simp only [Dev.updUplink, moved, same]

/-- A good frame in LOCKED: the orders of one that is no repeat are parsed. -/
theorem Dev.goodFrame_locked {d : Dev} (locked : d.uplink.locked = true) (t : HeadTime) (bytes : List Byte) :
    d.goodFrame t bytes =
      let v := { d with uplink := { d.uplink with badRun := 0, lastSeq := some (frameSeq bytes) } }
      if d.uplink.repeats bytes then v else v.parse t 250 true (orderArea bytes) := by
  have moved : d.uplink.good = { d.uplink with badRun := 0 } := if_pos locked
  rw [Dev.goodFrame]
  simp only [Dev.updUplink, moved]
  show (if (d.uplink.locked && !d.uplink.repeats bytes) = true then _ else _) = _
  rw [locked]
  cases d.uplink.repeats bytes <;> rfl

theorem Uplink.repeats_iff {bytes : List Byte} (sized : bytes.length = 256) (u : Uplink) : u.repeats bytes = true ↔
    u.lastSeq = some (frameSeq bytes) ∧ (bytes.getD 2 0).getLsbD 0 = false := by
  simp [Uplink.repeats, frameRestart_eq sized]

/-- An order that is not done on arrival joins the queue. -/
theorem Dev.handleOrder_queued {o : RawOrder} (kind : 4 < o.kind.toNat) (first : Bool) (t : HeadTime) (d : Dev) :
    d.handleOrder first t o = d.queueOrder o := by
  rw [Dev.handleOrder]
  split
  · omega
  · omega
  · omega
  · omega
  · rfl

/-- A parsed frame, from the bytes of its orders on. -/
theorem Dev.goodFrame_parsed {d : Dev} {t : HeadTime} {bytes rest : List Byte} {orders : List (Byte × List Byte)}
    (sized : bytes.length = 256) (locked : d.uplink.locked = true)
    (fresh : d.uplink.lastSeq ≠ some (frameSeq bytes) ∨ (bytes.getD 2 0).getLsbD 0 = true)
    (formed : ∀ o ∈ orders, o.1 ≠ 0 ∧ o.2.length < 256) (holds : orderArea bytes = orderBytes orders ++ rest) :
    ∃ n first, d.goodFrame t bytes = Dev.parse t (n + 1) first rest (Dev.judgeOrders t true orders
      { d with uplink := { d.uplink with badRun := 0, lastSeq := some (frameSeq bytes) } }) := by
  have new : ¬d.uplink.repeats bytes = true := by
    rw [Uplink.repeats_iff sized]
    rintro ⟨last, restart⟩
    rcases fresh with fresh | fresh
    · exact fresh last
    · exact absurd (restart.symm.trans fresh) Bool.false_ne_true
  have few : 2 * orders.length ≤ 250 := by
    have size : (orderArea bytes).length = 250 := by simp [orderArea, sized]
    have := length_orderBytes orders
    rw [holds, List.length_append] at size
    omega
  refine ⟨249 - orders.length, true && orders.isEmpty, (Dev.goodFrame_locked locked t bytes).trans ((if_neg new).trans ?_)⟩
  rw [holds, show 250 = orders.length + (249 - orders.length + 1) by omega, Dev.parse_orders t _ _ _ _ _ formed]

/-- Settles O43: the CRC, the lock and the repeat test take the frame apart, and its first order is handled. -/
theorem uplinkFramesAreTaken : Obligations.UplinkFramesAreTaken := by
  intro d q bytes t₀ released gathers sized seq good u run
  have isGood (h : good) : frameGood bytes = true := decide_eq_true h
  have isBad (h : ¬good) : frameGood bytes = false := decide_eq_false h
  let x : Dev := { d with counters := { d.counters with badFrames := satInc d.counters.badFrames }, uplink := u }
  let e : Dev := { d with uplink := u }
  have takes (h : good) : run = .next ⟨e.goodFrame t₀ bytes, q⟩ :=
    exec_uplinkFrame_good q released gathers sized (isGood h)
  have refuses (h : ¬good) : run = .next ⟨x.lockBad, q⟩ := exec_uplinkFrame_bad q released gathers sized (isBad h)
  refine ⟨fun bad short => ?_, fun bad locked many => ?_, fun ok searches few => ?_, fun ok searches many => ?_,
    fun ok locked last restart => ?_, fun k len body rest ok locked fresh area sizes kind known => ?_⟩
  · rw [refuses bad, Dev.lockBad_short (d := x) short]
  · obtain ⟨rep, lost, spec⟩ := Dev.lockBad_lost (d := x) locked many
    exact ⟨rep, by rw [refuses bad, lost], spec⟩
  · rw [takes ok, Dev.goodFrame_searching (d := e) searches few] <;> rfl
  · rw [takes ok, Dev.goodFrame_locking (d := e) searches many]
    exact (exec_uplinkFrame_good (d := { d with uplink := { d.uplink with locked := true, goodRun := 4, badRun := 0 } })
      q released gathers sized (isGood ok)).symm
  · have again : e.uplink.repeats bytes = true := (Uplink.repeats_iff sized _).mpr ⟨last, restart⟩
    rw [takes ok, Dev.goodFrame_locked (d := e) locked]
    refine congrArg (fun e => Host.Outcome.next (State.mk e q)) ((if_pos again).trans ?_)
    exact congrArg (fun s => ({ d with uplink := { u with badRun := 0, lastSeq := s } } : Dev)) last.symm
  · intro v
    have holds : orderArea bytes = orderBytes [(k, body)] ++ 0 :: rest := by
      refine area.trans ?_
      simp [orderBytes, sizes]
    have named : k ≠ 0 := by rintro rfl; simp at kind
    obtain ⟨n, first, parsed⟩ := Dev.goodFrame_parsed (d := e) (t := t₀) sized locked fresh (orders := [(k, body)])
      (by simpa [sizes] using ⟨named, len.isLt⟩) holds
    have ran : run = .next ⟨Dev.queueOrder { kind := k, body := body } { d with uplink := v }, q⟩ := by
      rw [takes ok, parsed, Dev.parse_ended t₀ _ _ _ (.inr rfl)]
      exact congrArg (fun e => Host.Outcome.next (State.mk e q)) ((if_pos (by rw [sizes]; exact known)).trans
        (Dev.handleOrder_queued (o := { kind := k, body := body }) (show 4 < k.toNat by omega) ..))
    refine ⟨fun room => ?_, fun full => ?_⟩
    · rw [ran, Dev.queueOrder, if_pos room] <;> rfl
    · rw [ran, Dev.queueOrder, if_neg (by exact Nat.not_lt.mpr full)] <;> rfl

/-! ### The orders of a frame in the words of the commands (R165 to R169) -/

/-- The order table of section 9.6. -/
theorem orderLengthOk_iff (k n : Nat) : orderLengthOk k n = true ↔
    (k = 0x01 ∧ n = 4 ∨ k = 0x02 ∧ n = 10 ∨ k = 0x03 ∧ n = 1 ∨
      k = 0x04 ∧ (1 ≤ n ∧ n ≤ 240) ∨ k = 0x10 ∧ n = 5 ∨ k = 0x11 ∧ n = 10 ∨ k = 0x12 ∧ n = 3 ∨ k = 0x13 ∧ n = 5 ∨
      k = 0x14 ∧ n = 6 ∨ k = 0x15 ∧ n = 2 ∨ k = 0x20 ∧ n = 10 ∨ k = 0x21 ∧ n = 3 ∨ k = 0x30 ∧ n = 4 ∨ k = 0x31 ∧ n = 7 ∨
      k = 0x32 ∧ n = 6 ∨ k = 0x33 ∧ (6 ≤ n ∧ n ≤ 69) ∨ k = 0x34 ∧ n = 3 ∨ k = 0x35 ∧ (3 ≤ n ∧ n ≤ 66) ∨
      k = 0x36 ∧ (7 ≤ n ∧ n ≤ 21 ∧ n % 2 = 1)) := by
  unfold orderLengthOk
  split
  case h_20 => simp only [imp_false] at *; simp only [Bool.false_eq_true, false_iff]; omega
  all_goals simp [and_assoc]

/-- A command without a response, out of RESET, is its operation. -/
theorem Dev.thenDo_of_run {c : Instr} (f : Dev → Dev) {d : Dev} (runs : exec c ⟨d, []⟩ = State.run f ⟨d, []⟩)
    (released : d.resetAsserted = false) : d.thenDo c = f d := by
  rw [Dev.thenDo, runs, State.run_of_released f released]

theorem Dev.thenDo_reference {d : Dev} (released : d.resetAsserted = false) (n : BitVec 32) (t : HeadTime) :
    d.thenDo (.reference n t) = d.takeReference n t := Dev.thenDo_of_run _ rfl released

theorem Dev.thenDo_echoReturn {d : Dev} (released : d.resetAsserted = false) (seq : BitVec 16) (stamp : HeadTime)
    (turn : BitVec 32) (t : HeadTime) : d.thenDo (.echoReturn seq stamp turn t) = d.takeEcho seq stamp turn t :=
  Dev.thenDo_of_run _ rfl released

theorem Dev.thenDo_credit {d : Dev} (released : d.resetAsserted = false) (n : BitVec 8) :
    d.thenDo (.credit n) = d.addCredit n.toNat := Dev.thenDo_of_run _ rfl released

theorem Dev.thenDo_returnData {d : Dev} (released : d.resetAsserted = false) (bytes : List Byte) :
    d.thenDo (.returnData bytes) = d.stageReturn bytes := Dev.thenDo_of_run _ rfl released

/-- One order of a frame, in the words of the commands. -/
theorem Dev.handleOrder_eq {e : Dev} (released : e.resetAsserted = false) (first : Bool) (t : HeadTime) (k : Byte)
    (body : List Byte) : e.handleOrder first t { kind := k, body := body } =
      if k = 1 then
        if first then e.thenDo (.reference (BitVec.ofNat 32 (bodyField body 0 4)) t)
        else { e with counters := { e.counters with misplacedReferences := satInc e.counters.misplacedReferences } }
      else if k = 2 then
        e.thenDo (.echoReturn (BitVec.ofNat 16 (bodyField body 0 2)) (BitVec.ofNat 32 (bodyField body 2 4))
          (BitVec.ofNat 32 (bodyField body 6 4)) t)
      else if k = 3 then e.thenDo (.credit (BitVec.ofNat 8 (bodyField body 0 1)))
      else if k = 4 then e.thenDo (.returnData body)
      else e.queueOrder { kind := k, body := body } := by
  have small : bodyField body 0 1 < 256 := by
    refine Nat.lt_of_lt_of_le (leNat_lt _) (Nat.pow_le_pow_right (n := 256) (by decide) (j := 1) ?_)
    exact List.length_take_le 1 _
  by_cases one : k = 1
  · subst one
    rw [if_pos rfl, Dev.thenDo_reference released] <;> rfl
  by_cases two : k = 2
  · subst two
    rw [if_neg (by decide), if_pos rfl, Dev.thenDo_echoReturn released] <;> rfl
  by_cases three : k = 3
  · subst three
    rw [if_neg (by decide), if_neg (by decide), if_pos rfl,
      Dev.thenDo_credit released, BitVec.toNat_ofNat,
      Nat.mod_eq_of_lt small] <;> rfl
  by_cases four : k = 4
  · subst four
    rw [if_neg (by decide), if_neg (by decide), if_neg (by decide), if_pos rfl,
      Dev.thenDo_returnData released] <;> rfl
  rw [if_neg one, if_neg two, if_neg three, if_neg four, Dev.handleOrder]
  split
  · next h => exact absurd (BitVec.eq_of_toNat_eq h) one
  · next h => exact absurd (BitVec.eq_of_toNat_eq h) two
  · next h => exact absurd (BitVec.eq_of_toNat_eq h) three
  · next h => exact absurd (BitVec.eq_of_toNat_eq h) four
  · rfl

@[simp] theorem Dev.judgeOrder_reset (first : Bool) (t : HeadTime) (o : Byte × List Byte) (d : Dev) :
    (d.judgeOrder first t o).resetAsserted = d.resetAsserted := by
  unfold Dev.judgeOrder
  split <;> simp

/-- The orders of a frame, one after another, by any function that judges each alike. -/
theorem Dev.judgeOrders_eq {t : HeadTime} {handle : Bool → Byte × List Byte → Dev → Dev}
    (same : ∀ first o e, e.resetAsserted = false → handle first o e = e.judgeOrder first t o)
    (orders : List (Byte × List Byte)) : ∀ (first : Bool) (d : Dev), d.resetAsserted = false →
      (match orders with
        | [] => d
        | o :: os => os.foldl (fun e x => handle false x e) (handle first o d)) = d.judgeOrders t first orders := by
  have later : ∀ (os : List (Byte × List Byte)) (d : Dev), d.resetAsserted = false →
      os.foldl (fun e x => handle false x e) d = d.judgeOrders t false os := by
    intro os
    induction os with
    | nil => intro d _; rfl
    | cons o os ih =>
      intro d released
      rw [List.foldl_cons, same false o d released, ih _ (by simpa using released), Dev.judgeOrders]
  intro first d released
  cases orders with
  | nil => rfl
  | cons o os =>
    dsimp only
    rw [same first o d released, later os _ (by simpa using released), Dev.judgeOrders]

/-- Settles O44: the parse handles the orders in their place, and each is the command of its name. -/
theorem ordersAreHandledInTheirPlace : Obligations.OrdersAreHandledInTheirPlace := by
  constructor
  · intro d q bytes t₀ orders rest released gathers sized good locked seq fresh formed area known handle v handled run
    have judged (first : Bool) (o : Byte × List Byte) (e : Dev) (up : e.resetAsserted = false) :
        handle first o e = e.judgeOrder first t₀ o := by
      simp only [handle, Dev.judgeOrder, Dev.handleOrder_eq up, known, ← orderLengthOk_iff, ite_not]
      rfl
    have all : handled = v.judgeOrders t₀ true orders :=
      (Dev.judgeOrders_eq judged orders true v released).symm ▸ by
        simp only [handled] <;> cases orders <;> rfl
    let e : Dev := { d with uplink := { d.uplink with frameStart := none } }
    have takes : run = .next ⟨e.goodFrame t₀ bytes, q⟩ :=
      exec_uplinkFrame_good q released gathers sized (decide_eq_true good)
    obtain ⟨n, first, parsed⟩ := Dev.goodFrame_parsed (d := e) (t := t₀) sized locked fresh formed area
    refine ⟨fun ended => ?_, fun ⟨k, kind, past⟩ => ?_⟩
    · rw [takes, parsed, Dev.parse_ended t₀ _ _ _ ended, all] <;> rfl
    · rw [takes, parsed, Dev.parse_overrun t₀ _ _ _ kind past, all]
      rfl
  · intro d q n bytes released e
    have stages : exec (.returnData bytes) ⟨d, q⟩ = .next ⟨d.stageReturn bytes, q⟩ := State.run_of_released _ released
    let s : Dev := { d with feed := { d.feed with fifo := d.feed.fifo ++ bytes } }
    have fits (h : d.feed.fifo.length + bytes.length ≤ 4096) : d.stageReturn bytes = s.drainExamine :=
      if_pos (by omega)
    have same (f : Feed) (h : s.feed.examine = f) : s.drainExamine = { s with feed := f } := by rw [Dev.drainExamine, h]
    refine ⟨⟨?_, fun idle => ?_⟩, fun room => ?_, fun bare room => ?_, fun kept past => ?_⟩
    · refine (State.run_of_released _ released).trans (congrArg (fun x => Host.Outcome.next (State.mk x q)) ?_)
      exact (Dev.fetchReplay_eq (d := e) released).symm
    · rw [Dev.fetchReplay_eq (d := e) released, Dev.replayExamine_idle (d := e) (.inr idle)]
    · rw [stages, fits room, Dev.thenDo_drain (d := s) released]
    · rw [stages, fits room, same s.feed (Feed.examine_of_stays (.inr (.inl bare)))]
    · rw [stages, Dev.stageReturn, if_neg (by omega)]
      rfl

end Sys2Proof.Machine
end

section
/-! SUPPORT. Replay orders (section 7.4): O46, O47. -/

namespace Sys2Proof.Machine

/-! ### REPLAY (R137) -/

theorem Dev.queueReplay_of_unplanned {d : Dev} (r : ReplayReq) (unplanned : d.plan.working = none) :
    d.queueReplay r = (d, .unplanned) := by
  simp [Dev.queueReplay, Dev.plan?, unplanned]

theorem Dev.queueReplay_of_plan {d : Dev} {w : WorkingPlan} (r : ReplayReq) (working : d.plan.working = some w) :
    d.queueReplay r = if w.plan.height ≤ r.first then (d, .invalid)
      else if 4 ≤ d.replay.queue.length then (d, .full)
      else (if d.replay.current.isNone then
        Dev.replaySettle { d with replay := { d.replay with queue := d.replay.queue ++ [r] } }
        else { d with replay := { d.replay with queue := d.replay.queue ++ [r] } }, .done) := by
  simp [Dev.queueReplay, Dev.plan?, working]

/-- A request that ends at once, with nothing behind it: its REPLAY-END is admitted, and the reader is as before. -/
theorem Dev.replaySettle_endedAtStart {d : Dev} (r : ReplayReq) (st : Status) (none_ : d.replay.current = none)
    (empty : d.replay.queue = []) (room : d.downlink.ctrl.length < 64) :
    (d.setCurrent (some (.endedAtStart r st))).replaySettle =
      { d with downlink := { d.downlink with ctrl := d.downlink.ctrl ++ [.replayEnd st r.tag r.frame 0] } } := by
  rw [Dev.replaySettle_ending (d := d.setCurrent _) rfl rfl, if_pos (by exact room),
    Dev.replaySettle_idle (d := Dev.finishRequest _ _) rfl (by exact empty), Dev.finishRequest_eq]
  exact congrArg (fun c => ({ d with
    replay := { d.replay with current := c }
    downlink := { d.downlink with ctrl := d.downlink.ctrl ++ [.replayEnd st r.tag r.frame 0] } } : Dev)) none_.symm

/-- Settles O46: the checks of `queueReplay`, and the start of a request by the state of its frame's slot. -/
theorem replayOrders : Obligations.ReplayOrders := by
  intro d q tag frame first count paced c r ready
  have room : d.downlink.ctrl.length < 64 := ready.2.2.1
  have released : d.resetAsserted = false := ready.1
  have ran : exec c ⟨d, q⟩ = .next ⟨(d.popOrder.queueReplay r).1.respond kindReplay tag (d.popOrder.queueReplay r).2 [], q⟩ :=
    Dev.takeOrder_of_ready _ ready
  refine ⟨fun unplanned => ?_, fun w working => ?_⟩
  · rw [ran, Dev.queueReplay_of_unplanned (d := d.popOrder) r unplanned, Dev.respond_popOrder] <;> rfl
  have judged := Dev.queueReplay_of_plan (d := d.popOrder) r working
  let x : Dev := { d with replay := { d.replay with queue := d.replay.queue ++ [r] } }
  have takes (inside : first.toNat < w.plan.height) (few : d.replay.queue.length < 4) (none_ : d.replay.current = none) :
      exec c ⟨d, q⟩ = .next ⟨x.replaySettle.answered kindReplay tag .done [], q⟩ := by
    rw [ran, judged, if_neg (by exact Nat.not_le.mpr inside), if_neg (by exact Nat.not_le.mpr few),
      if_pos (by simpa using none_)]
    exact congrArg (fun e => Host.Outcome.next (State.mk e q)) (Dev.replaySettle_popOrder kindReplay tag .done x)
  have starts (inside : first.toNat < w.plan.height) (empty : d.replay.queue = []) (none_ : d.replay.current = none) :
      exec c ⟨d, q⟩ = .next ⟨(d.startRequest r).replaySettle.answered kindReplay tag .done [], q⟩ := by
    have queue : x.replay.queue = [r] := by simp [x, empty]
    have back : ({ x with replay := { x.replay with queue := [] } } : Dev) = d := by
      rw [← empty]
    rw [takes inside (by simp [empty]) none_, Dev.replaySettle_starting (d := x) none_ queue, back]
  refine ⟨fun outside => ?_, fun inside many => ?_, fun inside few busy => ?_, fun inside empty none_ absent => ?_,
    fun s inside empty none_ found => ⟨fun filling => ⟨0, 0, ?_⟩, fun closed => ?_⟩⟩
  · rw [ran, judged, if_pos (by exact outside), Dev.respond_popOrder] <;> rfl
  · rw [ran, judged, if_neg (by exact Nat.not_le.mpr inside), if_pos (by exact many), Dev.respond_popOrder] <;> rfl
  · rw [ran, judged, if_neg (by exact Nat.not_le.mpr inside), if_neg (by exact Nat.not_le.mpr few),
      if_neg (by simpa using busy)]
    exact congrArg (fun e => Host.Outcome.next (State.mk e q)) (Dev.respond_popOrder kindReplay tag .done [] x)
  · rw [starts inside empty none_, Dev.startRequest_gone rfl absent,
      Dev.replaySettle_endedAtStart r .gone none_ empty room] <;> rfl
  · rw [starts inside empty none_, Dev.startRequest_filling rfl found filling,
      Dev.replaySettle_current (d := d.setCurrent _) rfl (.inl rfl)] <;> rfl
  · have shown : (count.toNat = 0) = (count = 0) := by
      rw [← BitVec.toNat_inj]
      rfl
    rw [starts inside empty none_, Dev.startRequest_closed rfl found closed working,
      Dev.replaySettle_examined rfl rfl, ReplayReq.lastLine]
    simp only [r, shown]
    exact congrArg (fun e => Host.Outcome.next (State.mk (Dev.answered kindReplay tag .done [] e) q))
      (Dev.fetchReplay_eq (by exact released)).symm

/-! ### CANCEL (R141) -/

theorem Dev.cancelRequest_popOrder (d : Dev) : d.popOrder.cancelRequest = d.cancelRequest.popOrder := by
  simp only [Dev.cancelRequest, show d.popOrder.replay = d.replay from rfl]
  cases d.replay.current with
  | none => rfl
  | some c =>
    dsimp only
    cases c.stage with
    | ending st => rfl
    | waitingClose => dsimp only; split <;> rfl
    | sending => dsimp only; split <;> rfl

/-- The block with the current request stopped: it is in ENDING CANCELLED, its mark and its lines gone (R141). -/
def Dev.stopped (c : CurrentReq) (d : Dev) : Dev := { d with
  ring := if c.marked then { d.ring with slots := d.ring.slots.modify c.slot fun x => { x with replay := false } }
    else d.ring
  replay := { d.replay with
    current := some { c with stage := .ending .cancelled, marked := false }, fetcher := d.replay.fetcher.dropAll } }

theorem Dev.cancelRequest_stops {d : Dev} {c : CurrentReq} (current : d.replay.current = some c)
    (stage : c.stage = .waitingClose ∨ c.stage = .sending) : d.cancelRequest = d.stopped c := by
  rw [Dev.cancelRequest, current]
  rcases stage with stage | stage
  all_goals
    simp only [stage]
    unfold Dev.stopped
    split <;> rfl

theorem Dev.cancelRequest_ending {d : Dev} {c : CurrentReq} {st : Status} (current : d.replay.current = some c)
    (stage : c.stage = .ending st) : d.cancelRequest = d := by
  simp [Dev.cancelRequest, current, stage]

theorem Dev.cancelRequest_none {d : Dev} (none_ : d.replay.current = none) : d.cancelRequest = d := by
  simp [Dev.cancelRequest, none_]

theorem exec_cancelCurrent {d : Dev} {q : List Instr} {tag : Tag} (ready : Ready (.cancelCurrent tag) ⟨d, q⟩) :
    exec (.cancelCurrent tag) ⟨d, q⟩ =
      .next ⟨(d.cancelRequest.thenDo .replayEndOffer).answered 0x12 tag .done [], q⟩ := by
  have released : d.cancelRequest.resetAsserted = false := by simpa using ready.1
  rw [Dev.thenDo_replayEnd released]
  refine (Dev.takeOrder_of_ready _ ready).trans (congrArg (fun e => Host.Outcome.next (State.mk e q)) ?_)
  rw [Dev.cancelRequest_popOrder, Dev.replaySettle_popOrder] <;> rfl

theorem exec_cancelAll {d : Dev} {q : List Instr} {tag : Tag} (ready : Ready (.cancelAll tag) ⟨d, q⟩) :
    exec (.cancelAll tag) ⟨d, q⟩ =
      .next ⟨(d.cancelRequest.cancelQueued.thenDo .replayEndOffer).answered 0x12 tag .done [], q⟩ := by
  have released : d.cancelRequest.cancelQueued.resetAsserted = false := by simpa using ready.1
  rw [Dev.thenDo_replayEnd released]
  refine (Dev.takeOrder_of_ready _ ready).trans (congrArg (fun e => Host.Outcome.next (State.mk e q)) ?_)
  rw [Dev.cancelRequest_popOrder]
  exact Dev.replaySettle_popOrder kindCancel tag .done d.cancelRequest.cancelQueued

/-- Settles O47: the current request is stopped, the queued ones are flagged, and the reader settles. -/
theorem cancelOrders : Obligations.CancelOrders := by
  intro d q tag
  refine ⟨fun none_ empty => ⟨fun ready => ?_, fun ready => ?_⟩, fun c current => ?_⟩
  · rw [exec_cancelCurrent ready, Dev.cancelRequest_none none_, Dev.thenDo_replayEnd ready.1,
      Dev.replaySettle_idle none_ empty]
  · have same : d.cancelQueued = d := by
      rw [Dev.cancelQueued, empty, List.map_nil, ← empty]
    rw [exec_cancelAll ready, Dev.cancelRequest_none none_, same, Dev.thenDo_replayEnd ready.1,
      Dev.replaySettle_idle none_ empty]
  intro unmarked stopped flagged offered ended end₀
  have cancelled (stage : c.stage = .waitingClose ∨ c.stage = .sending) : c.stage.cancelled = .cancelled := by
    rcases stage with stage | stage <;> rw [stage] <;> rfl
  have over_ (stage : c.stage = .waitingClose ∨ c.stage = .sending) : (flagged stopped).replay = d.replay.allEnded := by
    simp only [ReplayReader.allEnded, current, Option.map_some, cancelled stage]
    rfl
  have owed (stage : c.stage = .waitingClose ∨ c.stage = .sending) : d.replay.ends =
      end₀ :: d.replay.queue.map fun r => Entry.replayEnd .cancelled r.tag r.frame 0 := by
    simp only [ReplayReader.ends, current, Option.toList_some, List.map_cons, List.map_nil, cancelled stage]
    rfl
  have settled (stage : c.stage = .waitingClose ∨ c.stage = .sending) (ready : d.resetAsserted = false)
      (room : d.downlink.ctrl.length + d.replay.queue.length < 64) : (flagged stopped).thenDo .replayEndOffer =
        ended (end₀ :: d.replay.queue.map fun r => Entry.replayEnd .cancelled r.tag r.frame 0) := by
    have fits : stopped.downlink.ctrl.length + d.replay.ends.length ≤ 64 := by
      rw [owed stage, List.length_cons, List.length_map]
      exact room
    rw [Dev.thenDo_replayEnd (by exact ready), Dev.replaySettle_allEnded (over_ stage) fits, owed stage]
  refine ⟨fun ⟨st, stage⟩ => ⟨fun ready => ?_, fun ready => ?_⟩,
    fun stage => ⟨fun ready => ⟨?_, fun empty => ?_⟩, fun ready => ⟨?_, fun room => ?_⟩⟩⟩
  · rw [exec_cancelCurrent ready, Dev.cancelRequest_ending current stage]
  · rw [exec_cancelAll ready, Dev.cancelRequest_ending current stage] <;> rfl
  · rw [exec_cancelCurrent ready, Dev.cancelRequest_stops current stage] <;> rfl
  · have same : flagged stopped = stopped := by
      simp only [flagged, stopped, empty, List.map_nil]
    have done_ := settled stage ready.1 (by rw [empty]; exact ready.2.2.1)
    rw [same, empty] at done_
    rw [exec_cancelCurrent ready, Dev.cancelRequest_stops current stage, show d.stopped c = stopped from rfl, done_]
    rfl
  · rw [exec_cancelAll ready, Dev.cancelRequest_stops current stage] <;> rfl
  · rw [exec_cancelAll ready, Dev.cancelRequest_stops current stage, ← settled stage ready.1 room]
    rfl

end Sys2Proof.Machine
end

section
/-! SUPPORT. Stalls, closes and deadlines (sections 4.4, 4.5): O35, O36. -/

namespace Sys2Proof.Machine

/-! ### Contexts and fronts -/

theorem modify_of_getElem? {α : Type} {l : List α} {t : Nat} {x : α} (here : l[t]? = some x) (f : α → α) :
    l.modify t f = l.set t (f x) := by
  rw [List.modify_eq_set_getElem?, here]
  rfl

@[simp] theorem Dev.withCtx_ctx (i : CtxId) (c : Option Context) (d : Dev) : (d.withCtx i c).tracker.ctx i = c := by
  cases i <;> rfl

theorem Dev.withCtx_other {i j : CtxId} (other : j ≠ i) (c : Option Context) (d : Dev) :
    (d.withCtx i c).tracker.ctx j = d.tracker.ctx j := by
  cases i <;> cases j <;> simp_all [Dev.withCtx, Tracker.ctx]

@[simp] theorem Dev.withCtx_withCtx (i : CtxId) (c e : Option Context) (d : Dev) :
    (d.withCtx i c).withCtx i e = d.withCtx i e := by cases i <;> rfl

theorem Dev.withCtx_self {i : CtxId} {c : Option Context} {d : Dev} (bound : d.tracker.ctx i = c) :
    d.withCtx i c = d := by
  subst bound
  cases i <;> rfl

theorem Dev.updFront_eq {i : CtxId} {c : Context} {d : Dev} (bound : d.tracker.ctx i = some c) (t : Nat)
    (f : Front → Front) : d.updFront i t f = d.withCtx i (some { c with fronts := c.fronts.modify t f }) := by
  cases i <;> simp_all [Dev.updFront, Dev.updCtx, Dev.withCtx, Tracker.ctx]

/-- The block with another slot table. -/
def Dev.withSlots (l : List Slot) (d : Dev) : Dev := { d with ring := { d.ring with slots := l } }

theorem Dev.withCtx_withSlots (i : CtxId) (c : Option Context) (l : List Slot) (d : Dev) :
    (d.withCtx i c).withSlots l = (d.withSlots l).withCtx i c := by cases i <;> rfl

@[simp] theorem Dev.withCtx_slots (i : CtxId) (c : Option Context) (d : Dev) :
    (d.withCtx i c).ring.slots = d.ring.slots := by cases i <;> rfl

/-! ### Stalls (R68, R71, R72) -/

/-- A stall: the tile's missing rows join the damage list, and its front is STALLED. -/
theorem Dev.stallTile_eq {i : CtxId} {c : Context} {d : Dev} (bound : d.tracker.ctx i = some c) (p : Plan) (s t : Nat)
    (g : Front) : d.stallTile p i s t g = Dev.withCtx i
      (some { c with fronts := c.fronts.modify t fun g => { g with status := .stalled } })
      (d.withSlots (d.ring.slots.modify s fun x => { x with
        damage := x.damage.modify t (addRange (p.rows (p.tileAt t)) g.row (p.rows (p.tileAt t) - 1)) })) := by
  rw [Dev.stallTile, Dev.updFront_eq (d := d.addDamage p s t g.row _) bound]
  rfl

/-- A context with the RUNNING ones of some tiles STALLED. -/
def Context.stalled (ts : List Nat) (c : Context) : Context := { c with
  fronts := c.fronts.mapIdx fun t g => if t ∈ ts ∧ g.status = .running then { g with status := .stalled } else g }

/-- A damage list with the missing rows of a tile added. -/
def Context.addMissing (p : Plan) (c : Context) (t : Nat) : List RowRange → List RowRange :=
  addRange (p.rows (p.tileAt t)) (c.fronts.getD t .start).row (p.rows (p.tileAt t) - 1)

/-- A slot with the missing rows of the RUNNING ones of some tiles damaged. -/
def Context.missing (p : Plan) (ts : List Nat) (c : Context) (x : Slot) : Slot := { x with
  damage := x.damage.mapIdx fun t l => if t ∈ ts ∧ (c.fronts.getD t .start).status = .running then
    c.addMissing p t l else l }

/-- The block with the RUNNING ones of some tiles STALLED. -/
def Dev.stalledTiles (p : Plan) (i : CtxId) (c : Context) (ts : List Nat) (d : Dev) : Dev :=
  (d.withSlots (d.ring.slots.modify c.slot (c.missing p ts))).withCtx i (some (c.stalled ts))

theorem Context.stalled_cons {c : Context} {t : Nat} {ts : List Nat} (new : t ∉ ts)
    (running : (c.fronts.getD t .start).status = .running) : c.stalled (t :: ts) =
      { c with fronts := (c.stalled ts).fronts.modify t fun g => { g with status := .stalled } } := by
  refine congrArg (fun l => ({ c with fronts := l } : Context)) (List.ext_getElem? fun u => ?_)
  simp only [Context.stalled, List.getElem?_modify, List.getElem?_mapIdx]
  cases here : c.fronts[u]? with
  | none => rfl
  | some g =>
    by_cases same : t = u
    · subst same
      simp only [List.getD_eq_getElem?_getD, here, Option.getD_some] at running
      simp [running, new]
    · simp [same, Ne.symm same]

theorem Context.missing_cons {c : Context} {t : Nat} {ts : List Nat} (p : Plan) (new : t ∉ ts)
    (running : (c.fronts.getD t .start).status = .running) (x : Slot) : c.missing p (t :: ts) x =
      { c.missing p ts x with damage := (c.missing p ts x).damage.modify t (c.addMissing p t) } := by
  refine congrArg (fun l => ({ x with damage := l } : Slot)) (List.ext_getElem? fun u => ?_)
  simp only [Context.missing, List.getElem?_modify, List.getElem?_mapIdx]
  cases x.damage[u]? with
  | none => rfl
  | some l =>
    by_cases same : t = u
    · subst same
      simp only [List.mem_cons, true_or, true_and, if_pos running, new, false_and, if_false, if_true]
      rfl
    · simp [same, Ne.symm same]

theorem Dev.stalledTiles_nil {i : CtxId} {c : Context} {d : Dev} (bound : d.tracker.ctx i = some c) (p : Plan) :
    d.stalledTiles p i c [] = d := by
  have same {α : Type} (l : List α) : (l.mapIdx fun _ x => x) = l := List.ext_getElem? fun u => by simp
  have fronts : c.stalled [] = c := by simp [Context.stalled, same]
  have slots : c.missing p [] = id := by
    funext x
    simp [Context.missing, same]
  rw [Dev.stalledTiles, fronts, slots, List.modify_id]
  exact Dev.withCtx_self bound

theorem Dev.stalledTiles_idle {i : CtxId} {c : Context} {t : Nat} (p : Plan) (ts : List Nat) (d : Dev)
    (idle : (c.fronts.getD t .start).status ≠ .running) :
    d.stalledTiles p i c (t :: ts) = d.stalledTiles p i c ts := by
  have fronts : c.stalled (t :: ts) = c.stalled ts := by
    refine congrArg (fun l => ({ c with fronts := l } : Context)) (List.ext_getElem? fun u => ?_)
    simp only [List.getElem?_mapIdx, List.mem_cons]
    cases here : c.fronts[u]? with
    | none => rfl
    | some g =>
      by_cases same : u = t
      · subst same
        simp only [List.getD_eq_getElem?_getD, here, Option.getD_some] at idle
        simp [idle]
      · simp [same]
  have slots : c.missing p (t :: ts) = c.missing p ts := by
    funext x
    refine congrArg (fun l => ({ x with damage := l } : Slot)) (List.ext_getElem? fun u => ?_)
    simp only [List.getElem?_mapIdx, List.mem_cons]
    by_cases same : u = t
    · subst same
      simp only [idle, and_false]
    · simp [same]
  rw [Dev.stalledTiles, fronts, slots, Dev.stalledTiles]

theorem Dev.stallTile_stalledTiles {i : CtxId} {c : Context} {t : Nat} {ts : List Nat} (p : Plan) (d : Dev)
    (new : t ∉ ts) (running : (c.fronts.getD t .start).status = .running) :
    (d.stalledTiles p i c ts).stallTile p i c.slot t (c.fronts.getD t .start) = d.stalledTiles p i c (t :: ts) := by
  have slots : d.ring.slots.modify c.slot (c.missing p (t :: ts)) =
      (d.ring.slots.modify c.slot (c.missing p ts)).modify c.slot fun x => { x with damage := x.damage.modify t (c.addMissing p t) } := by
    rw [List.modify_modify_eq]
    exact congrArg (d.ring.slots.modify c.slot) (funext fun x => Context.missing_cons p new running x)
  rw [Dev.stallTile_eq (c := c.stalled ts) (by simp [Dev.stalledTiles])]
  conv => rhs; rw [Dev.stalledTiles, slots, Context.stalled_cons new running]
  simp only [Dev.stalledTiles, Dev.withCtx_slots, Dev.withCtx_withSlots, Dev.withCtx_withCtx]
  rfl

theorem Dev.stallAll_stalledTiles (p : Plan) (i : CtxId) (c : Context) (d : Dev) (rest : List Nat) :
    ∀ done : List Nat, rest.Nodup → (∀ t ∈ rest, t ∉ done) →
      (d.stalledTiles p i c done).stallAll p i c rest = d.stalledTiles p i c (rest.reverse ++ done) := by
  induction rest with
  | nil => intro done _ _; rfl
  | cons t rest ih =>
    intro done nodup new
    obtain ⟨apart, nodup⟩ := List.nodup_cons.mp nodup
    have next : (if (c.fronts.getD t .start).status = .running then
        (d.stalledTiles p i c done).stallTile p i c.slot t (c.fronts.getD t .start) else d.stalledTiles p i c done) =
        d.stalledTiles p i c (t :: done) := by
      split
      · next running => exact Dev.stallTile_stalledTiles p d (new t List.mem_cons_self) running
      · next idle => exact (Dev.stalledTiles_idle p done d idle).symm
    rw [Dev.stallAll, next, ih (t :: done) nodup fun u hu => ?_]
    · simp
    · rw [List.mem_cons, not_or]
      exact ⟨fun same => apart (same ▸ hu), new u (List.mem_cons_of_mem t hu)⟩

/-- A context with every RUNNING tile STALLED. -/
def Context.allStalled (c : Context) : Context := { c with
  fronts := c.fronts.map fun g => if g.status = .running then { g with status := .stalled } else g }

/-- A slot with the missing rows of every RUNNING tile of a context damaged. -/
def Context.allMissing (p : Plan) (c : Context) (x : Slot) : Slot := { x with
  damage := x.damage.mapIdx fun t l => match c.fronts[t]? with
    | some g => if g.status = .running then addRange (p.rows (p.tileAt t)) g.row (p.rows (p.tileAt t) - 1) l else l
    | none => l }

/-- Stalling every RUNNING tile of a context, in one equation. -/
theorem Dev.stallAll_eq {i : CtxId} {c : Context} {d : Dev} (bound : d.tracker.ctx i = some c) (p : Plan) :
    d.stallAll p i c (List.range c.fronts.length) =
      (d.withSlots (d.ring.slots.modify c.slot (c.allMissing p))).withCtx i (some c.allStalled) := by
  have all := Dev.stallAll_stalledTiles p i c d (List.range c.fronts.length) [] List.nodup_range (by simp)
  rw [Dev.stalledTiles_nil bound] at all
  have fronts : c.stalled ((List.range c.fronts.length).reverse ++ []) = c.allStalled := by
    refine congrArg (fun l => ({ c with fronts := l } : Context)) (List.ext_getElem? fun u => ?_)
    rw [List.getElem?_mapIdx, List.getElem?_map]
    cases here : c.fronts[u]? with
    | none => rfl
    | some g =>
      have inside : u < c.fronts.length := (List.getElem?_eq_some_iff.mp here).1
      simp [inside]
  have slots : c.missing p ((List.range c.fronts.length).reverse ++ []) = c.allMissing p := by
    funext x
    refine congrArg (fun l => ({ x with damage := l } : Slot)) (List.ext_getElem? fun u => ?_)
    rw [List.getElem?_mapIdx, List.getElem?_mapIdx]
    refine congrArg (fun f => x.damage[u]?.map f) (funext fun l => ?_)
    cases here : c.fronts[u]? with
    | none =>
      have outside : c.fronts.length ≤ u := List.getElem?_eq_none_iff.mp here
      simp [Nat.not_lt.mpr outside]
    | some g =>
      have inside : u < c.fronts.length := (List.getElem?_eq_some_iff.mp here).1
      simp only [List.append_nil, List.mem_reverse, List.mem_range, inside, true_and, Context.addMissing,
        List.getD_eq_getElem?_getD, here, Option.getD_some]
  rw [all, Dev.stalledTiles, fronts, slots]

end Sys2Proof.Machine
end

section
/-! SUPPORT. CLEAR (section 5.6): O49. -/

namespace Sys2Proof.Machine

theorem Dev.freeCtx_withCtx (i : CtxId) (c : Option Context) (d : Dev) : (d.withCtx i c).freeCtx i = d.freeCtx i := by
  cases i <;> rfl

/-- A slot force-closed at CLEAR: CLOSED, with the outcomes, and the missing rows of its RUNNING tiles damaged (R72). -/
def Context.shut (p : Plan) (c : Context) (x : Slot) : Slot := { x with
  state := .closed
  outcomes := c.fronts.map fun g => if g.status = .finished then .finished else .stalled
  damage := x.damage.mapIdx fun t l => match c.fronts[t]? with
    | some g => if g.status = .running then addRange (p.rows (p.tileAt t)) g.row (p.rows (p.tileAt t) - 1) l else l
    | none => l }

theorem Context.allStalled_outcomes (c : Context) : c.allStalled.fronts.map (·.status.outcome) =
    c.fronts.map fun g => if g.status = .finished then .finished else .stalled := by
  simp only [Context.allStalled, List.map_map]
  refine List.map_congr_left fun g _ => ?_
  obtain ⟨row, byte, seen, last, status⟩ := g
  cases status <;> rfl

/-- CLEAR's close of a bound context. -/
theorem Dev.clearClose_bound {i : CtxId} {c : Context} {d : Dev} (bound : d.tracker.ctx i = some c) (p : Plan) :
    d.clearClose p i = (d.withSlots (d.ring.slots.modify c.slot (c.shut p))).freeCtx i := by
  let x : Dev := (d.withSlots (d.ring.slots.modify c.slot (c.allMissing p))).withCtx i (some c.allStalled)
  have closed : d.clearClose p i = x.shutFrame i c.allStalled := by
    rw [Dev.clearClose, bound]
    dsimp only
    rw [Dev.stallAll_eq bound, show x.tracker.ctx i = some c.allStalled from Dev.withCtx_ctx ..]
  have table : (d.ring.slots.modify c.slot (c.allMissing p)).modify c.slot (fun y => { y with
      state := .closed, outcomes := c.allStalled.fronts.map (·.status.outcome) }) =
      d.ring.slots.modify c.slot (c.shut p) := by
    rw [List.modify_modify_eq]
    refine congrArg (d.ring.slots.modify c.slot) (funext fun y => ?_)
    rw [Context.allStalled_outcomes]
    rfl
  have frees : x.shutFrame i c.allStalled =
      (((d.withSlots (d.ring.slots.modify c.slot (c.allMissing p))).withCtx i (some c.allStalled)).withSlots
        ((d.ring.slots.modify c.slot (c.allMissing p)).modify c.slot (fun y => { y with
          state := .closed, outcomes := c.allStalled.fronts.map (·.status.outcome) }))).freeCtx i := by
    simp only [x]
    cases i <;> rfl
  rw [closed, frees, table, Dev.withCtx_withSlots, Dev.freeCtx_withCtx]
  rfl

theorem Dev.clearClose_free {i : CtxId} {d : Dev} (free : d.tracker.ctx i = none) (p : Plan) :
    d.clearClose p i = d := by rw [Dev.clearClose, free]

/-- The slot table after CLEAR's close of a context, bound or free. -/
def Dev.shutSlots (p : Plan) (i : CtxId) (slots : List Slot) (d : Dev) : List Slot :=
  match d.tracker.ctx i with
  | none => slots
  | some c => slots.modify c.slot (c.shut p)

/-- The tracker with a context free, whether it was bound or not. -/
def Tracker.freed (i : CtxId) (t : Tracker) : Tracker :=
  let order := t.order.filter fun j => j ≠ i || (t.ctx i).isNone
  match i with
  | .c0 => { t with ctx0 := none, order := order }
  | .c1 => { t with ctx1 := none, order := order }

theorem Dev.clearClose_eq (p : Plan) (i : CtxId) (d : Dev) : d.clearClose p i =
    { d.withSlots (d.shutSlots p i d.ring.slots) with tracker := d.tracker.freed i } := by
  cases bound : d.tracker.ctx i with
  | none =>
    have order : (d.tracker.order.filter fun j => j ≠ i || (d.tracker.ctx i).isNone) = d.tracker.order :=
      List.filter_eq_self.mpr fun j _ => by simp [bound]
    have tracker : d.tracker.freed i = d.tracker := by
      unfold Tracker.freed
      rw [order]
      cases i <;> dsimp only <;> rw [← bound] <;> rfl
    rw [Dev.clearClose_free bound, Dev.shutSlots, bound, tracker] <;> rfl
  | some c =>
    have order : (d.tracker.order.filter fun j => j ≠ i || (d.tracker.ctx i).isNone) =
        d.tracker.order.filter (· ≠ i) := by simp [bound]
    rw [Dev.clearClose_bound bound, Dev.shutSlots, bound]
    unfold Tracker.freed
    rw [order]
    cases i <;> rfl

/-- CLEAR's close of both contexts, in one equation. -/
theorem Dev.clearClose_both (p : Plan) (d : Dev) : (d.clearClose p .c0).clearClose p .c1 = { d with
    ring := { d.ring with slots := d.shutSlots p .c1 (d.shutSlots p .c0 d.ring.slots) }
    tracker := { d.tracker with
      ctx0 := none, ctx1 := none, order := d.tracker.order.filter fun i => (d.tracker.ctx i).isNone } } := by
  have order : ((d.tracker.order.filter fun j => j ≠ .c0 || d.tracker.ctx0.isNone).filter
      fun j => j ≠ .c1 || d.tracker.ctx1.isNone) = d.tracker.order.filter fun i => (d.tracker.ctx i).isNone := by
    rw [List.filter_filter]
    refine List.filter_congr fun j _ => ?_
    cases j <;> simp [Tracker.ctx]
  rw [Dev.clearClose_eq, Dev.clearClose_eq]
  exact congrArg (fun l => ({ d with
    ring := { d.ring with slots := d.shutSlots p .c1 (d.shutSlots p .c0 d.ring.slots) }
    tracker := { d.tracker with ctx0 := none, ctx1 := none, order := l } } : Dev)) order

/-! ### The three steps of CLEAR (R96) -/

/-- The block with every replay request ended, the live frames and the lines dropped, and every mark removed, before the
REPLAY-END entries are offered. -/
def Dev.unread (d : Dev) : Dev := { d with
  ring := { d.ring with slots := d.ring.slots.map fun x => { x with live := false, replay := false } }
  live := d.live.dropFrames
  replay := d.replay.allEnded }

theorem Dev.clearReaders_eq (d : Dev) : d.clearReaders = d.unread.replaySettle := by
  have bare (k : Nat) (f : Slot → Slot) (marks : ∀ x, ({ f x with live := false, replay := false } : Slot) =
      { x with live := false, replay := false }) : ((d.ring.slots.modify k f).map fun x =>
        ({ x with live := false, replay := false } : Slot)) =
      d.ring.slots.map fun x => { x with live := false, replay := false } := by
    refine List.ext_getElem? fun u => ?_
    rw [List.getElem?_map, List.getElem?_map, List.getElem?_modify]
    cases d.ring.slots[u]? with
    | none => rfl
    | some x =>
      by_cases here : k = u
      · simpa [here] using marks x
      · simp [here]
  have unmarked (k : Nat) := bare k (fun x => { x with replay := false }) fun _ => rfl
  unfold Dev.clearReaders
  refine congrArg Dev.replaySettle ?_
  cases current : d.replay.current with
  | none =>
    simp [Dev.cancelRequest, current, Dev.cancelQueued, Dev.forgetMark, Dev.setCurrent, Dev.unread,
      ReplayReader.allEnded]
  | some c =>
    cases stage : c.stage with
    | ending st =>
      simp [Dev.cancelRequest, current, stage, Dev.cancelQueued, Dev.forgetMark, Dev.setCurrent, Dev.unread,
        ReplayReader.allEnded, Stage.cancelled]
    | waitingClose =>
      cases marked : c.marked <;>
      simp [Dev.cancelRequest, current, stage, marked, Dev.cancelQueued, Dev.forgetMark, Dev.setCurrent, Dev.unread,
        ReplayReader.allEnded, Stage.cancelled, Fetcher.dropAll_dropAll, Dev.unmark, Dev.updSlot, unmarked]
    | sending =>
      cases marked : c.marked <;>
      simp [Dev.cancelRequest, current, stage, marked, Dev.cancelQueued, Dev.forgetMark, Dev.setCurrent, Dev.unread,
        ReplayReader.allEnded, Stage.cancelled, Fetcher.dropAll_dropAll, Dev.unmark, Dev.updSlot, unmarked]

theorem Dev.shutSlots_held (p : Plan) (i : CtxId) (l : List Slot) (d : Dev) (s : Nat) :
    ((d.shutSlots p i l).getD s .vacant).held = (l.getD s .vacant).held := by
  unfold Dev.shutSlots
  cases d.tracker.ctx i with
  | none => rfl
  | some c =>
    simp only [List.getD_eq_getElem?_getD, List.getElem?_modify]
    cases l[s]? with
    | none => rfl
    | some x => by_cases here : c.slot = s <;> simp [here, Context.shut]

/-- The second and the third step of CLEAR, in one equation. -/
theorem Dev.clearFilling_clearSlots {d : Dev} {p : Plan} (planned : d.plan? = some p) :
    d.clearFilling.clearSlots = { d with
      ring := { d.ring with
        slots := (d.shutSlots p .c1 (d.shutSlots p .c0 d.ring.slots)).map fun x => if x.held then x else Slot.vacant
        age := d.ring.age.filter fun s => (d.ring.slot s).held }
      tracker := { d.tracker with
        ctx0 := none, ctx1 := none, order := d.tracker.order.filter fun i => (d.tracker.ctx i).isNone } } := by
  rw [Dev.clearFilling, planned]
  dsimp only
  rw [Dev.clearClose_both, Dev.clearSlots]
  have held (s : Nat) : ((d.shutSlots p .c1 (d.shutSlots p .c0 d.ring.slots)).getD s .vacant).held =
      (d.ring.slot s).held := by
    rw [Dev.shutSlots_held, Dev.shutSlots_held, Ring.slot]
  simp only [Ring.slot] at held ⊢
  simp only [held]

/-- With no context bound CLEAR closes no frame. -/
theorem Dev.clearFilling_free {d : Dev} (free0 : d.tracker.ctx0 = none) (free1 : d.tracker.ctx1 = none) :
    d.clearFilling = d := by
  unfold Dev.clearFilling
  cases d.plan? with
  | none => rfl
  | some p =>
    dsimp only
    rw [Dev.clearClose_free (i := .c0) free0, Dev.clearClose_free (i := .c1) free1]

/-- Offering the REPLAY-END entries that CLEAR owes touches neither the slots nor the tracker. -/
theorem Dev.unread_settled (d : Dev) : d.unread.replaySettle.ring = d.unread.ring ∧
    d.unread.replaySettle.tracker = d.tracker ∧ d.unread.replaySettle.plan = d.plan ∧
    d.unread.replaySettle.uplink = d.uplink :=
  ⟨(Dev.replayPump_over _ d.replay.over_allEnded).1, by simp [Dev.unread], by simp [Dev.unread], by simp [Dev.unread]⟩

/-- Settles O49: the readers are cleared and settle, the FILLING slots are shut, the slots not held emptied. -/
theorem clearOrders : Obligations.ClearOrders := by
  intro d q tag ready bare e f kept age
  have settled : f = d.unread.replaySettle := Dev.thenDo_replayEnd (by exact ready.1)
  obtain ⟨ring, tracker, plan, uplink⟩ := d.unread_settled
  rw [← settled] at ring tracker plan uplink
  let popped : Uplink := { d.uplink with orders := d.uplink.orders.tail }
  have ran : exec (.clear tag) ⟨d, q⟩ =
      .next ⟨(f.withUplink popped).clearFilling.clearSlots.respond kindClear tag .done [], q⟩ := by
    refine (Dev.takeOrder_of_ready _ ready).trans (congrArg (fun e => Host.Outcome.next (State.mk e q)) ?_)
    rw [Dev.clearRing, Dev.clearReaders_eq, settled, ← Dev.replaySettle_withUplink]
    rfl
  have answers (x : Dev) (same : x.uplink = d.uplink) : (x.withUplink popped).respond kindClear tag .done [] =
      x.answered 0x15 tag .done [] := by
    rw [Dev.respond_eq, Dev.answered, same]
    rfl
  have heldAge : (f.ring.age.filter fun s => (f.ring.slot s).held) = age := by
    rw [ring]
    refine List.filter_congr fun s _ => ?_
    simp only [Ring.slot, Dev.unread, List.getD_eq_getElem?_getD, List.getElem?_map]
    cases d.ring.slots[s]? <;> rfl
  refine ⟨fun w working => ?_, fun free0 free1 => ?_, fun room => ?_⟩
  · intro shut
    have planned : (f.withUplink popped).plan? = some w.plan := by
      simp only [Dev.plan?, Dev.withUplink, plan, working, Option.map_some]
    have shuts (i : CtxId) (l : List Slot) : f.shutSlots w.plan i l = shut i l := by
      simp only [Dev.shutSlots, tracker, shut] <;> cases d.tracker.ctx i <;> rfl
    let x : Dev := { f with
      ring := { f.ring with
        slots := (f.shutSlots w.plan .c1 (f.shutSlots w.plan .c0 f.ring.slots)).map kept
        age := f.ring.age.filter fun s => (f.ring.slot s).held }
      tracker := { f.tracker with
        ctx0 := none, ctx1 := none, order := f.tracker.order.filter fun i => (f.tracker.ctx i).isNone } }
    rw [ran, Dev.clearFilling_clearSlots planned]
    refine congrArg (fun e => Host.Outcome.next (State.mk e q)) ((answers x uplink).trans ?_)
    simp only [x]
    rw [heldAge, shuts, shuts, tracker, ring]
    rfl
  · let x : Dev := { f with ring := { f.ring with
      slots := f.ring.slots.map kept, age := f.ring.age.filter fun s => (f.ring.slot s).held } }
    have idle : (f.withUplink popped).clearFilling = f.withUplink popped :=
      Dev.clearFilling_free (by exact tracker ▸ free0) (by exact tracker ▸ free1)
    rw [ran, idle]
    refine congrArg (fun e => Host.Outcome.next (State.mk e q)) ((answers x uplink).trans ?_)
    simp only [x]
    rw [heldAge, ring]
    exact congrArg (fun l => Dev.answered 0x15 tag .done [] { f with ring := { d.ring with slots := l, age := age } })
      (List.map_map ..)
  · rw [settled, Dev.replaySettle_allEnded (d := d.unread) rfl room] <;> rfl

end Sys2Proof.Machine
end

section
/-! SUPPORT. Closes and deadlines (sections 4.4, 4.5, 5.7): O36, O35. -/

namespace Sys2Proof.Machine

/-! ### The damaged output rows (R75, R98) -/

/-- How many numbers below `n` lie in an interval. -/
theorem countP_interval (a b n : Nat) : (List.range n).countP (fun r => decide (a ≤ r ∧ r < b)) = min b n - a := by
  induction n with
  | zero => simp
  | succ n ih =>
    rw [List.range_succ, List.countP_append, ih, List.countP_singleton]
    by_cases inside : a ≤ n ∧ n < b
    · rw [if_pos (decide_eq_true inside)]
      omega
    · rw [if_neg (by simpa using inside)]
      omega

/-- What satisfies one of two conditions that exclude each other is counted once. -/
theorem countP_or_of_disjoint {α : Type} {p q : α → Bool} (apart : ∀ x, p x = true → q x = false) (l : List α) :
    l.countP (fun x => p x || q x) = l.countP p + l.countP q := by
  induction l with
  | nil => rfl
  | cons x l ih =>
    simp only [List.countP_cons, ih]
    cases left : p x
    · simp [Nat.add_assoc]
    · simp [apart x left, Nat.add_right_comm]

/-- The rows counted range by range are the rows at the lead or above that lie in a range. -/
theorem damagedRows_eq {rows : Nat} {list : List RowRange} (safe : RangesSafe rows list) (lead : Nat) :
    damagedRows lead list = ((List.range rows).filter fun r =>
      lead ≤ r && list.any fun g => g.first ≤ r && r ≤ g.last).length := by
  obtain ⟨-, bounds, ordered⟩ := safe
  rw [← List.countP_eq_length_filter]
  induction list with
  | nil => simp [damagedRows]
  | cons g gs ih =>
    obtain ⟨⟨proper, inside⟩, bounds⟩ := List.forall_mem_cons.mp bounds
    obtain ⟨before, ordered⟩ := List.pairwise_cons.mp ordered
    have split : (fun r => decide (lead ≤ r) && (g :: gs).any fun g => decide (g.first ≤ r) && decide (r ≤ g.last)) =
        fun r => decide (max g.first lead ≤ r ∧ r < g.last + 1) ||
          (decide (lead ≤ r) && gs.any fun g => decide (g.first ≤ r) && decide (r ≤ g.last)) := by
      funext r
      rw [List.any_cons, Bool.and_or_distrib_left]
      congr 1
      rw [Bool.eq_iff_iff]
      simp only [Bool.and_eq_true, decide_eq_true_eq]
      omega
    have apart (r : Nat) (here : decide (max g.first lead ≤ r ∧ r < g.last + 1) = true) :
        (decide (lead ≤ r) && gs.any fun g => decide (g.first ≤ r) && decide (r ≤ g.last)) = false := by
      rw [decide_eq_true_eq] at here
      rw [Bool.and_eq_false_iff, List.any_eq_false]
      refine .inr fun k hk => ?_
      have := before k hk
      simp only [Bool.and_eq_true, decide_eq_true_eq]
      omega
    rw [split, countP_or_of_disjoint apart, ← ih bounds ordered, countP_interval]
    simp only [damagedRows, List.map_cons, List.sum_cons]
    omega

/-! ### The close of a frame (R70, R97, R138) -/

theorem Dev.closeCheck_running {d : Dev} {i : CtxId} {c : Context} (bound : d.tracker.ctx i = some c) (p : Plan)
    (runs : ∃ g ∈ c.fronts, g.status = .running) : d.closeCheck p i = d := by
  rw [Dev.closeCheck, bound]
  refine if_neg fun all => ?_
  obtain ⟨g, hg, running⟩ := runs
  simpa [running] using List.all_eq_true.mp all g hg

theorem Dev.closeCheck_over {d : Dev} {i : CtxId} {c : Context} (bound : d.tracker.ctx i = some c) (p : Plan)
    (ended : ∀ g ∈ c.fronts, g.status ≠ .running) : d.closeCheck p i = d.closeFrame p i c := by
  rw [Dev.closeCheck, bound]
  exact if_pos (List.all_eq_true.mpr fun g hg => by simpa using ended g hg)

/-- Offering an entry that asks for 17 free ones, in one equation. -/
theorem Dev.offer_seventeen {e : Entry} (seventeen : e.threshold = 17) (d : Dev) : d.offer e = { d with
    downlink := { d.downlink with
      ctrl := if d.downlink.ctrl.length ≤ 47 then d.downlink.ctrl ++ [e] else d.downlink.ctrl }
    counters := if d.downlink.ctrl.length ≤ 47 then d.counters
      else { d.counters with droppedEntries := satInc d.counters.droppedEntries } } := by
  rcases d.offer_cases e with ⟨room, offered⟩ | ⟨full, offered⟩
  · have few : d.downlink.ctrl.length ≤ 47 := by omega
    rw [offered, if_pos few, if_pos few]
    rfl
  · have many : ¬d.downlink.ctrl.length ≤ 47 := by omega
    rw [offered, if_neg many, if_neg many]
    rfl

theorem Dev.replayClosed_other {d : Dev} {s : Nat}
    (other : ∀ r, d.replay.current = some r → r.stage = .waitingClose → r.slot ≠ s) : d.replayClosed s = d := by
  unfold Dev.replayClosed
  split
  · rfl
  · next r current =>
    refine if_neg fun waits => ?_
    simp only [Bool.and_eq_true, decide_eq_true_eq] at waits
    exact other r current waits.1 waits.2

theorem Dev.replayClosed_waiting {d : Dev} {s : Nat} {r : CurrentReq} (current : d.replay.current = some r)
    (waits : r.stage = .waitingClose) (slot : r.slot = s) : d.replayClosed s = d.enterSending r.req s := by
  rw [Dev.replayClosed, current]
  exact if_pos (by simp [waits, slot])

/-- Settles O36: the frame is shut, its entry offered, and the replay reader told. -/
theorem framesClose : Obligations.FramesClose := by
  intro d p i c h released bound inside height s rows damaged closed entry room e
  refine ⟨fun runs => Dev.closeCheck_running bound p runs, fun ended safe => ?_⟩
  let shut : Dev := Dev.withCtx i none { d with
    ring := { d.ring with slots := d.ring.slots.set c.slot closed }
    tracker := { d.tracker with order := d.tracker.order.filter (· ≠ i) } }
  have outcomes : (c.fronts.map (·.status.outcome)) = closed.outcomes :=
    List.map_congr_left fun g _ => by cases g.status <;> rfl
  have shuts : d.shutFrame i c = shut := by
    have table : d.ring.slots.modify c.slot (fun x => { x with
        state := .closed, outcomes := c.fronts.map (·.status.outcome) }) = d.ring.slots.set c.slot closed := by
      rw [Ring.modify_slots _ inside, outcomes]
    rw [Dev.shutFrame, Dev.updSlot, table]
    cases i <;> rfl
  have slot : shut.ring.slot c.slot = closed := by
    have table : shut.ring.slots = d.ring.slots.set c.slot closed := Dev.withCtx_slots ..
    exact Ring.slot_of_getElem? (by rw [table]; simp [inside])
  have counted : p.damagedOutputRows closed = ((List.range p.tiles.length).map damaged).sum :=
    congrArg List.sum (List.map_congr_left fun t ht => damagedRows_eq (safe t (List.mem_range.mp ht)) _)
  have stalls : closed.outcomes.map (fun o => decide (o = .stalled)) = c.fronts.map fun g => decide (g.status = .stalled) := by
    rw [← outcomes, List.map_map]
    exact List.map_congr_left fun g _ => by cases hg : g.status <;> simp [hg, TileStatus.outcome]
  have reports : p.closedEntry c.slot closed = entry := by
    rw [Plan.closedEntry, counted, stalls]
  have offered : shut.offer entry = e := by
    rw [Dev.offer_seventeen rfl]
    cases i <;> rfl
  have closes : d.closeCheck p i = e.replayClosed c.slot := by
    rw [Dev.closeCheck_over bound p ended, Dev.closeFrame, shuts]
    rw [slot, reports, offered]
  have replay : e.replay = d.replay := by cases i <;> rfl
  have plan : e.plan = d.plan := by cases i <;> rfl
  refine ⟨fun other => ?_, fun r current waits here planned => ?_⟩
  · rw [closes, Dev.replayClosed_other (by rw [replay]; exact other)]
  · obtain ⟨w, working⟩ := Option.ne_none_iff_exists'.mp planned
    have tall : (e.plan?.map (·.height)).getD 0 = h := by simp [Dev.plan?, plan, working, height w working]
    have marked : (d.ring.slots.set c.slot closed).modify c.slot (fun x => { x with replay := true }) =
        d.ring.slots.set c.slot { closed with replay := true } := modify_set ..
    rw [closes, Dev.replayClosed_waiting (by rw [replay]; exact current) waits here, Dev.enterSending, tall]
    refine Eq.trans ?_ (Dev.fetchReplay_eq (by cases i <;> exact released)).symm
    rw [← marked]
    cases i <;> rfl

/-! ### A tile's deadline (R65 to R68) -/

theorem exec_tileDeadlineExpiry {d : Dev} {q : List Instr} {n : Nat} {i : CtxId} (t : Nat)
    (released : d.resetAsserted = false) (named : n = 0 ∧ i = .c0 ∨ n = 1 ∧ i = .c1) :
    exec (.tileDeadlineExpiry n t) ⟨d, q⟩ = .next ⟨d.expireTile i t, q⟩ := by
  rcases named with ⟨rfl, rfl⟩ | ⟨rfl, rfl⟩
  · exact State.run_of_released _ released
  · exact State.run_of_released _ released

/-- Settles O35: the tile stalls, the close check and the live reader follow. -/
theorem tileDeadlineStalls : Obligations.TileDeadlineStalls := by
  intro d q n i t w c g released named working bound front running due rows stalled z
  have planned : d.plan? = some w.plan := by simp [Dev.plan?, working]
  have expired : d.tileExpired w.plan c t = reached d.timing.now due := by
    rw [Dev.tileExpired, front]
    simp only [running, decide_true, Bool.true_and]
    rfl
  have here : c.fronts.getD t .start = g := by rw [List.getD_eq_getElem?_getD, front]; rfl
  have stalls : d.stallTile w.plan i c.slot t g = z := by
    rw [Dev.stallTile_eq bound, modify_of_getElem? front] <;> rfl
  have ran : exec (.tileDeadlineExpiry n t) ⟨d, q⟩ =
      .next ⟨if reached d.timing.now due then (z.closeCheck w.plan i).liveExamine else d, q⟩ := by
    rw [exec_tileDeadlineExpiry t released named, Dev.expireTile, planned, bound]
    dsimp only
    rw [expired, here, stalls]
  have up : (z.closeCheck w.plan i).resetAsserted = false := by
    have : z.resetAsserted = false := by cases i <;> exact released
    simpa using this
  refine ⟨fun early => ?_, fun past => ?_, fun u g' past other apart runs => ?_⟩
  · rw [ran, if_neg (by simp [early])]
  · rw [ran, if_pos past, Dev.fetchLive_eq up]
  · have idle : z.closeCheck w.plan i = z := by
      refine Dev.closeCheck_running (c := { c with fronts := c.fronts.set t { g with status := .stalled } })
        (Dev.withCtx_ctx ..) w.plan ⟨g', ?_, runs⟩
      exact List.mem_of_getElem? (i := u) (by rw [List.getElem?_set_ne (Ne.symm apart)]; exact other)
    refine ⟨z.liveExamine, by rw [ran, if_pos past, idle], ?_, fun j ne => ?_, ?_, ?_, ?_⟩
    · simp [z]
    · simpa [z] using Dev.withCtx_other ne _ _
    · have : z.tracker.order = d.tracker.order := by cases i <;> rfl
      simpa using this
    · have : z.ring = { d.ring with slots := d.ring.slots.modify c.slot stalled } := by cases i <;> rfl
      simpa using this
    · obtain ⟨live, same⟩ : ∃ l, z.liveExamine = { z with live := l } :=
        ⟨z.liveExamine.live, Dev.liveExamine_congr rfl rfl rfl rfl⟩
      rw [same]
      cases i <;> rfl

end Sys2Proof.Machine
end

section
/-! SUPPORT. Tracker pieces (section 4.2): O34. -/

namespace Sys2Proof.Machine

/-- The one context bound to a slot is the one that a piece in it is judged by. -/
theorem Tracker.boundTo_of_unique {t : Tracker} {i : CtxId} {c : Context} {s : Nat} (bound : t.ctx i = some c)
    (slot : c.slot = s) (only : ∀ j e, t.ctx j = some e → e.slot = s → j = i) : t.boundTo s = some i := by
  unfold Tracker.boundTo
  cases i with
  | c0 =>
    have first : t.ctx0 = some c := bound
    rw [if_pos (by simp [first, slot])]
  | c1 =>
    have second : t.ctx1 = some c := bound
    rw [if_neg, if_pos (by simp [second, slot])]
    intro first
    cases named : t.ctx0 with
    | none => simp [named] at first
    | some e => exact absurd (only .c0 e named (by simpa [named] using first)) (by decide)

/-- A piece lies wholly behind a front (R60). -/
def Front.behind (q : Piece) (g : Front) : Prop := q.row < g.row ∨ (q.row = g.row ∧ q.stop ≤ g.byte)

/-- A slot with the rows that a piece jumps over, or leaves open, damaged (R57, R58, R59). -/
def Front.skipped (p : Plan) (q : Piece) (g : Front) (s : Slot) : Slot :=
  let damaged (f l : Nat) (s : Slot) : Slot :=
    { s with damage := s.damage.modify q.tile (addRange (p.rows (p.tileAt q.tile)) f l) }
  if g.row < q.row then
    if q.first = 0 then damaged g.row (q.row - 1) s else damaged q.row q.row (damaged g.row (q.row - 1) s)
  else if g.byte < q.first then damaged g.row g.row s
  else s

section
variable {d : Dev} {p : Plan} {i : CtxId} {c : Context} {q : Piece} {g : Front}

/-- A piece that is not behind the front moves it, after the rows it skips were damaged. -/
theorem Dev.judgePiece_ahead (now : HeadTime) (front : c.fronts[q.tile]? = some g) (running : g.status = .running)
    (ahead : ¬g.behind q) : d.judgePiece p i c now q =
      (d.withSlots (d.ring.slots.modify q.slot (g.skipped p q))).moveFront p i now q := by
  have here : c.fronts.getD q.tile .start = g := by rw [List.getD_eq_getElem?_getD, front]; rfl
  rw [Front.behind] at ahead
  rw [Dev.judgePiece, here, if_neg (by simp [running])]
  by_cases inPlace : q.row = g.row ∧ q.first ≤ g.byte ∧ g.byte < q.stop
  · have none_ : g.skipped p q = id := by
      funext s
      rw [Front.skipped, if_neg (by omega), if_neg (by omega)]
      rfl
    rw [if_pos inPlace, none_, List.modify_id]
    rfl
  rw [if_neg inPlace]
  by_cases gap : q.row = g.row ∧ g.byte < q.first
  · have row : g.skipped p q = fun s => { s with
        damage := s.damage.modify q.tile (addRange (p.rows (p.tileAt q.tile)) g.row g.row) } := by
      funext s
      rw [Front.skipped, if_neg (by omega), if_pos gap.2]
    rw [if_pos gap, row]
    rfl
  rw [if_neg gap]
  have jump : g.row < q.row := by omega
  rw [if_pos jump]
  by_cases begins : q.first = 0
  · have rows : g.skipped p q = fun s => { s with
        damage := s.damage.modify q.tile (addRange (p.rows (p.tileAt q.tile)) g.row (q.row - 1)) } := by
      funext s
      rw [Front.skipped, if_pos jump, if_pos begins]
    rw [rows]
    simp only [begins, if_true]
    rfl
  · have rows : d.ring.slots.modify q.slot (g.skipped p q) =
        (d.ring.slots.modify q.slot fun s => { s with
          damage := s.damage.modify q.tile (addRange (p.rows (p.tileAt q.tile)) g.row (q.row - 1)) }).modify q.slot
        fun s => { s with damage := s.damage.modify q.tile (addRange (p.rows (p.tileAt q.tile)) q.row q.row) } := by
      rw [List.modify_modify_eq]
      refine congrArg (d.ring.slots.modify q.slot) (funext fun s => ?_)
      rw [Front.skipped, if_pos jump, if_neg begins]
      rfl
    rw [rows]
    simp only [begins, if_false]
    rfl

/-- A piece behind the front rewrites its slot. -/
theorem Dev.judgePiece_behind (now : HeadTime) (front : c.fronts[q.tile]? = some g) (running : g.status = .running)
    (behind : g.behind q) (some_ : q.first < q.stop) : d.judgePiece p i c now q =
      (d.withSlots (d.ring.slots.modify q.slot fun s => { s with rewrites := satInc s.rewrites })).updFront i q.tile
        fun g => { g with seen := true } := by
  have here : c.fronts.getD q.tile .start = g := by rw [List.getD_eq_getElem?_getD, front]; rfl
  rw [Front.behind] at behind
  rw [Dev.judgePiece, here, if_neg (by simp [running]), if_neg (by omega), if_neg (by omega), if_neg (by omega)]
  rfl

theorem Dev.judgePiece_late (now : HeadTime) (front : c.fronts[q.tile]? = some g) (late : g.status ≠ .running) :
    d.judgePiece p i c now q = { d with
      counters := { d.counters with lateWrites := satInc d.counters.lateWrites } } := by
  have here : c.fronts.getD q.tile .start = g := by rw [List.getD_eq_getElem?_getD, front]; rfl
  rw [Dev.judgePiece, here, if_pos late]
  rfl

/-- The front moves; the close check follows where the tile finishes. -/
theorem Dev.moveFront_eq (now : HeadTime) (bound : d.tracker.ctx i = some c) (front : c.fronts[q.tile]? = some g) :
    let x := d.withCtx i (some { c with
      fronts := c.fronts.set q.tile (g.moveTo (p.rows (p.tileAt q.tile)) (p.rowLen (p.tileAt q.tile)) now q) })
    d.moveFront p i now q = Dev.liveExamine
      (if q.stop = p.rowLen (p.tileAt q.tile) ∧ q.row + 1 = p.rows (p.tileAt q.tile) then x.closeCheck p i else x) := by
  intro x
  rw [Dev.moveFront, Dev.updFront_eq bound, modify_of_getElem? front]
  simp only [Bool.and_eq_true, decide_eq_true_eq]
  rfl

end

/-- Settles O34: the piece goes to the one context of its slot, and is behind the front or moves it. -/
theorem trackerPiecesAreJudged : Obligations.TrackerPiecesAreJudged := by
  intro d p now q released x run
  refine ⟨fun empty => ?_, fun closed => ?_, fun i c g filling bound slot only front some_ => ?_⟩
  · have state : (d.ring.slot q.slot).state = .empty := empty
    simp only [run, Dev.trackerPiece, state]
    rfl
  · have state : (d.ring.slot q.slot).state = .closed := closed
    simp only [run, Dev.trackerPiece, state, Bool.or_eq_true]
    rfl
  intro rows rowEnd finishes behind damaged skipped put slots moved
  have state : (d.ring.slot q.slot).state = .filling := filling
  have judged : run = d.judgePiece p i c now q := by
    simp only [run, Dev.trackerPiece, state, Tracker.boundTo_of_unique bound slot only, bound]
  have unmoved (l : List Slot) : (d.withSlots l).tracker.ctx i = some c := bound
  have moves (running : g.status = .running) (ahead : ¬behind) : run = Dev.liveExamine
      (if finishes then moved.closeCheck p i else moved) := by
    have target : Front.moveTo (p.rows (p.tileAt q.tile)) (p.rowLen (p.tileAt q.tile)) now q g =
        { row := if rowEnd then q.row + 1 else q.row, byte := if rowEnd then 0 else q.stop, seen := true
          lastAdvance := now, status := if finishes then .finished else .running } := by
      have row : rowEnd ↔ q.stop = p.rowLen (p.tileAt q.tile) := Iff.rfl
      have last : finishes ↔ rowEnd ∧ q.row + 1 = p.rows (p.tileAt q.tile) := Iff.rfl
      rw [Front.moveTo]
      by_cases h : rowEnd
      · simp only [last, h, true_and, if_pos (row.mp h), running, if_true]
      · simp only [last, h, false_and, if_neg (mt row.mpr h), running, if_false]
    rw [judged, Dev.judgePiece_ahead now front running ahead, Dev.moveFront_eq now (unmoved _) front, target]
    rfl
  refine ⟨fun late => ?_, fun running back => ?_, fun running ahead stays => ?_, fun running ahead ends => ?_⟩
  · rw [judged, Dev.judgePiece_late now front late]
  · rw [judged, Dev.judgePiece_behind now front running back some_, Dev.updFront_eq (unmoved _),
      modify_of_getElem? front]
    rfl
  · rw [moves running ahead, if_neg stays, Dev.fetchLive_eq (by cases i <;> exact released)]
  · rw [moves running ahead, if_pos ends, Dev.fetchLive_eq]
    have : moved.resetAsserted = false := by cases i <;> exact released
    simpa using this

end Sys2Proof.Machine
end

section
/-! SUPPORT. Captures (section 5.2): O33. -/

namespace Sys2Proof.Machine

/-! ### Parts that do not read the timing generator -/

/-- The replay reader's fetches read the plan, the slot table and the reader, and move the reader alone (R139). -/
theorem Dev.replayBegin?_congr {d e : Dev} (plan : e.plan = d.plan) (replay : e.replay = d.replay)
    (slots : e.ring.slots = d.ring.slots) :
    e.replayBegin? = d.replayBegin?.map fun x => { e with replay := x.replay } := by
  have slot (s : Nat) : e.ring.slot s = d.ring.slot s := by simp only [Ring.slot, slots]
  unfold Dev.replayBegin?
  rw [show e.plan? = d.plan? by simp only [Dev.plan?, plan], replay]
  split
  · split
    · simp only [slot, Option.map_some]
    · rfl
  · rfl

theorem Dev.replayExamine_congr {d e : Dev} (plan : e.plan = d.plan) (replay : e.replay = d.replay)
    (slots : e.ring.slots = d.ring.slots) : e.replayExamine = { e with replay := d.replayExamine.replay } := by
  have first := Dev.replayBegin?_congr plan replay slots
  unfold Dev.replayExamine
  rw [first]
  cases begun : d.replayBegin? with
  | none => simp [← replay]
  | some x =>
    have same : x = { d with replay := x.replay } := by
      have self := Dev.replayBegin?_congr (d := d) (e := d) rfl rfl rfl
      rw [begun] at self
      simpa using self
    have second : ({ e with replay := x.replay } : Dev).replayBegin? =
        x.replayBegin?.map fun y => { e with replay := y.replay } := by
      rw [Dev.replayBegin?_congr (d := x) (e := { e with replay := x.replay }) (by rw [same]; exact plan) rfl
        (by rw [same]; exact slots)]
    simp only [Option.map_some, second]
    cases x.replayBegin? <;> simp

/-- The block with another timing generator. -/
def Dev.withTiming (t : Timing) (d : Dev) : Dev := { d with timing := t }

theorem Dev.replayExamine_withTiming (t : Timing) (d : Dev) :
    (d.withTiming t).replayExamine = d.replayExamine.withTiming t := by
  rw [Dev.replayExamine_congr (d := d) (e := d.withTiming t) rfl rfl rfl,
    show d.replayExamine = { d with replay := d.replayExamine.replay } from Dev.replayExamine_congr rfl rfl rfl] <;> rfl

theorem Dev.liveExamine_withTiming (t : Timing) (d : Dev) :
    (d.withTiming t).liveExamine = d.liveExamine.withTiming t := by
  rw [Dev.liveExamine_congr (d := d) (e := d.withTiming t) rfl rfl rfl rfl,
    show d.liveExamine = { d with live := d.liveExamine.live } from Dev.liveExamine_congr rfl rfl rfl rfl] <;> rfl

theorem Dev.replayClosed_withTiming (s : Nat) (t : Timing) (d : Dev) :
    (d.withTiming t).replayClosed s = (d.replayClosed s).withTiming t := by
  unfold Dev.replayClosed
  rw [show (d.withTiming t).replay = d.replay from rfl]
  split
  · rfl
  · split
    · rw [Dev.enterSending, Dev.enterSending, ← Dev.replayExamine_withTiming]
      rfl
    · rfl

theorem Dev.closeFrame_withTiming (p : Plan) (i : CtxId) (c : Context) (t : Timing) (d : Dev) :
    (d.withTiming t).closeFrame p i c = (d.closeFrame p i c).withTiming t := by
  have shut : (d.withTiming t).shutFrame i c = (d.shutFrame i c).withTiming t := by cases i <;> rfl
  have offer (e : Entry) (d : Dev) : (d.withTiming t).offer e = (d.offer e).withTiming t := by
    unfold Dev.offer
    rw [show (d.withTiming t).admits e = d.admits e from rfl]
    split <;> rfl
  rw [Dev.closeFrame, Dev.closeFrame, ← Dev.replayClosed_withTiming, ← offer, shut]
  rfl

/-! ### The forced close at a capture (R71) -/

/-- The block with every RUNNING tile of a context STALLED, and the forced close counted. -/
def Dev.forceStalled (p : Plan) (i : CtxId) (c : Context) (d : Dev) : Dev :=
  ({ d.withSlots (d.ring.slots.modify c.slot (c.allMissing p)) with
    counters := { d.counters with forcedCloses := satInc d.counters.forcedCloses } }).withCtx i (some c.allStalled)

theorem Context.allStalled_ended (c : Context) : ∀ g ∈ c.allStalled.fronts, g.status ≠ .running := by
  intro g hg
  obtain ⟨f, -, rfl⟩ := List.mem_map.mp hg
  split
  · simp
  · next idle => exact idle

/-- A forced close stalls the tiles, closes the frame, and lets the live reader look for lines. -/
theorem Dev.forceClose_eq {d : Dev} {i : CtxId} {c : Context} (bound : d.tracker.ctx i = some c) (p : Plan) :
    d.forceClose p i = ((d.forceStalled p i c).closeCheck p i).liveExamine := by
  let x : Dev := d.forceStalled p i c
  have here : x.tracker.ctx i = some c.allStalled := Dev.withCtx_ctx ..
  have counts : Dev.count (fun k => { k with forcedCloses := satInc k.forcedCloses })
      ((d.withSlots (d.ring.slots.modify c.slot (c.allMissing p))).withCtx i (some c.allStalled)) = x := by
    cases i <;> rfl
  rw [Dev.forceClose, bound]
  dsimp only
  rw [Dev.stallAll_eq bound, counts, here]
  exact congrArg Dev.liveExamine (Dev.closeCheck_over here p c.allStalled_ended).symm

theorem Dev.forceClose_withTiming {d : Dev} {i : CtxId} {c : Context} (bound : d.tracker.ctx i = some c) (p : Plan)
    (t : Timing) : (d.withTiming t).forceClose p i = (d.forceClose p i).withTiming t := by
  have here (d : Dev) : (d.forceStalled p i c).tracker.ctx i = some c.allStalled := Dev.withCtx_ctx ..
  have same : (d.withTiming t).forceStalled p i c = (d.forceStalled p i c).withTiming t := by cases i <;> rfl
  rw [Dev.forceClose_eq (d := d.withTiming t) bound, Dev.forceClose_eq bound, Dev.closeCheck_over (here _) p c.allStalled_ended,
    Dev.closeCheck_over (here _) p c.allStalled_ended, same, Dev.closeFrame_withTiming, Dev.liveExamine_withTiming]

theorem exec_capture {d : Dev} {q : List Instr} {c : InGroup} {rest : List InGroup} {w : WorkingPlan}
    (released : d.resetAsserted = false) (group : d.timing.inGroup = c :: rest)
    (due : reached d.timing.now c.at_ = true) (working : d.plan.working = some w) :
    exec .capture ⟨d, q⟩ =
      .next ⟨(d.withTiming { d.timing with inGroup := rest }).takeCapture w.plan c.at_ c.phase c.base, q⟩ := by
  have planned : (d.withTiming { d.timing with inGroup := rest }).plan? = some w.plan := by
    simp [Dev.plan?, Dev.withTiming, working]
  refine (State.run_of_released _ released).trans (congrArg (fun e => Host.Outcome.next (State.mk e q)) ?_)
  rw [Dev.captureDue, group]
  refine (if_pos due).trans ?_
  rw [Dev.takeInGroup]
  rw [show (d.updTiming fun t => { t with inGroup := rest }).plan? = some w.plan from planned] <;> rfl

/-- A frame's close moves no gate (section 5.2). -/
theorem Dev.closeFrame_gate (p : Plan) (i : CtxId) (c : Context) (d : Dev) :
    (d.closeFrame p i c).ring.gate = d.ring.gate := by
  have sent (r : ReplayReq) (s : Nat) (d : Dev) : (d.enterSending r s).ring.gate = d.ring.gate := by
    simp [Dev.enterSending, Dev.mark, Dev.updSlot]
  have closed (s : Nat) (d : Dev) : (d.replayClosed s).ring.gate = d.ring.gate := by
    unfold Dev.replayClosed
    split
    · rfl
    · split
      · exact sent ..
      · rfl
  rw [Dev.closeFrame, closed]
  simp only [Dev.offer_frame, Dev.shutFrame_ring]

theorem Dev.forceClose_gate {d : Dev} {i : CtxId} {c : Context} (bound : d.tracker.ctx i = some c) (p : Plan) :
    (d.forceClose p i).ring.gate = d.ring.gate := by
  rw [Dev.forceClose_eq bound, Dev.closeCheck_over (c := c.allStalled) (by exact Dev.withCtx_ctx ..) p c.allStalled_ended]
  simp only [Dev.liveExamine_frame, Dev.closeFrame_gate]
  cases i <;> rfl

theorem Tracker.toForce_of_bound {t : Tracker} (busy0 : t.ctx0 ≠ none) (busy1 : t.ctx1 ≠ none) :
    t.toForce = t.order.head? := by
  unfold Tracker.toForce
  cases c0 : t.ctx0 with
  | none => exact absurd c0 busy0
  | some a =>
    cases c1 : t.ctx1 with
    | none => exact absurd c1 busy1
    | some b => rfl

/-- A capture with both contexts bound is one of the block with the earlier one freed by a forced close (R71, R81). -/
theorem Dev.takeCapture_of_forced {d : Dev} {p : Plan} {at_ : HeadTime} {phase : Nat} {base : BitVec 32} {i : CtxId}
    {c : Context} (runs : d.ring.gate ≠ .paused) (bound : d.tracker.ctx i = some c) (forces : d.tracker.toForce = some i) :
    d.takeCapture p at_ phase base = (d.forceClose p i).takeCapture p at_ phase base := by
  have freed : (d.forceClose p i).tracker.ctx0 = none ∨ (d.forceClose p i).tracker.ctx1 = none := by
    have free := Dev.forceClose_ctx p i d
    cases i with
    | c0 => exact .inl free
    | c1 => exact .inr free
  have gate := Dev.forceClose_gate bound p
  rw [Dev.takeCapture, if_neg runs, forces, Dev.takeCapture_of_free (by rw [gate]; exact runs) freed] <;> rfl

/-- Settles O33: the gate, the slot and the context decide, and a forced close only frees a context first. -/
theorem captureTakesASlot : Obligations.CaptureTakesASlot := by
  intro d q c rest w i released group due working later free e f x
  have ran : exec .capture ⟨d, q⟩ = .next ⟨e.takeCapture w.plan c.at_ c.phase c.base, q⟩ :=
    exec_capture released group due working
  refine ⟨fun paused => ?_, fun runs isFree none_ => ?_, fun runs isFree chosen => ?_, fun j y runs busy order bound => ?_⟩
  · rw [ran, Dev.takeCapture_of_paused (by exact paused)]
  · rw [ran, Dev.takeCapture_of_free (by exact runs) (by exact isFree), show e.ring.choose w.plan.slots = none from none_] <;> rfl
  · have allotted := Dev.allocate_of_phase (d := e) (p := w.plan) (s := i) (at_ := c.at_) (base := c.base) isFree later
    rw [ran, Dev.takeCapture_of_free (by exact runs) (by exact isFree), show e.ring.choose w.plan.slots = some i from chosen]
    dsimp only
    rw [allotted]
    rfl
  · intro missing stalled z
    have same : d.forceStalled w.plan j y = z := rfl
    have ended : z.closeCheck w.plan j = z.closeFrame w.plan j y.allStalled :=
      Dev.closeCheck_over (Dev.withCtx_ctx ..) w.plan y.allStalled_ended
    have up : (z.closeCheck w.plan j).resetAsserted = false := by
      have : z.resetAsserted = false := by cases j <;> exact released
      simpa using this
    have forced : d.forceClose w.plan j = (z.closeCheck w.plan j).fetchLive := by
      rw [Dev.fetchLive_eq up, Dev.forceClose_eq bound, same]
    have forces : e.tracker.toForce = some j :=
      (Tracker.toForce_of_bound (t := e.tracker) (busy ∘ .inl) (busy ∘ .inr)).trans order
    refine ⟨by rw [ended, Dev.closeFrame_ctx, if_pos rfl], fun k other => ?_, ?_⟩
    · rw [ended, Dev.closeFrame_ctx, if_neg other]
      exact Dev.withCtx_other other ..
    · obtain ⟨reset, timing, plan⟩ : (d.forceClose w.plan j).resetAsserted = false ∧
          (d.forceClose w.plan j).timing = d.timing ∧ (d.forceClose w.plan j).plan = d.plan := by simp [released]
      rw [ran, ← forced, exec_capture (d := d.forceClose w.plan j) (c := c) (rest := rest) reset (by rw [timing, group])
        (by rw [timing, due]) (by rw [plan, working]), timing, ← Dev.forceClose_withTiming bound]
      exact congrArg (fun e => Host.Outcome.next (State.mk e q)) (Dev.takeCapture_of_forced (by exact runs) bound forces)

end Sys2Proof.Machine
end

section
/-! SUPPORT. Cells (sections 8.2 to 8.4): O58. -/

namespace Sys2Proof.Machine

/-! ### The kind of the cell at a boundary (R146) -/

section
variable {d : Dev}

theorem Fetcher.offers_of_head {f : Fetcher} {i : BufId} {rest : List BufId} (order : f.order = i :: rest)
    (filled : (f.buf i).state = .ready ∨ (f.buf i).state = .sending) : f.offers = true := by
  rw [Fetcher.offers, order]
  simpa using filled

theorem Fetcher.offers_of_nil {f : Fetcher} (empty : f.order = []) : f.offers = false := by rw [Fetcher.offers, empty]

theorem Dev.cellKind_fill (queue : d.downlink.ctrl = []) (live : d.live.fetcher.order = [])
    (replay : d.replay.fetcher.order = []) : d.cellKind = .fill := by
  simp [Dev.cellKind, queue, Fetcher.offers_of_nil live, Fetcher.offers_of_nil replay]

theorem Dev.cellKind_control (queue : d.downlink.ctrl ≠ [])
    (rank : (d.downlink.sinceControl = 16 ∨ 32 ≤ d.downlink.ctrl.length) ∨
      (d.live.fetcher.order = [] ∧ d.replay.fetcher.order = [])) : d.cellKind = .control := by
  have waits : d.downlink.ctrl.isEmpty = false := by simpa using queue
  rcases rank with first | ⟨live, replay⟩
  · simp [Dev.cellKind, waits, first]
  · simp [Dev.cellKind, waits, Fetcher.offers_of_nil live, Fetcher.offers_of_nil replay]

/-- Below rank 1 the readers come first. -/
theorem Dev.cellKind_of_low
    (low : d.downlink.ctrl = [] ∨ (d.downlink.sinceControl ≠ 16 ∧ d.downlink.ctrl.length < 32)) : d.cellKind =
      if d.live.fetcher.offers then .live else if d.replay.fetcher.offers then .replay
      else if !d.downlink.ctrl.isEmpty then .control else .fill := by
  refine if_neg fun first => ?_
  simp only [Bool.and_eq_true, Bool.not_eq_true', Bool.or_eq_true, decide_eq_true_eq] at first
  obtain ⟨queue, rank⟩ := first
  rcases low with empty | ⟨count, short⟩
  · simp [empty] at queue
  · omega

end

/-! ### After a CONTROL cell (R152, R171) -/

section
variable {d : Dev}

theorem Dev.thenDo_responseOffer (released : d.resetAsserted = false) : d.thenDo .responseOffer = d.reofferResponse :=
  Dev.thenDo_of_run _ rfl released

theorem Dev.reofferResponse_of_room {kind : Byte} {tag : Tag} {st : Status} {data : List Byte}
    (held : d.uplink.executor = .responding (.response kind tag st data)) (room : d.downlink.ctrl.length < 64) :
    d.reofferResponse = { d with
      uplink := { d.uplink with executor := .idle }
      downlink := { d.downlink with ctrl := d.downlink.ctrl ++ [.response kind tag st data] } } := by
  have admits : d.admits (.response kind tag st data) = true :=
    decide_eq_true (show 1 ≤ 64 - d.downlink.ctrl.length by omega)
  simp only [Dev.reofferResponse, held, admits, if_true] <;> rfl

theorem Dev.replaySettle_rests (empty : d.replay.queue = [])
    (rests : ∀ c st, d.replay.current = some c → c.stage ≠ .ending st) : d.replaySettle = d := by
  cases current : d.replay.current with
  | none => exact Dev.replaySettle_idle current empty
  | some c =>
    refine Dev.replaySettle_current current ?_
    cases stage : c.stage with
    | waitingClose => exact .inl rfl
    | sending => exact .inr rfl
    | ending st => exact absurd stage (rests c st current)

/-- The last request's REPLAY-END is admitted, and nothing follows it. -/
theorem Dev.replaySettle_last {c : CurrentReq} {st : Status} (empty : d.replay.queue = [])
    (current : d.replay.current = some c) (ends : c.stage = .ending st) (room : d.downlink.ctrl.length < 64) :
    d.replaySettle = { d with
      ring := if c.marked then { d.ring with slots := d.ring.slots.modify c.slot fun x => { x with replay := false } }
        else d.ring
      replay := { d.replay with current := none }
      downlink := { d.downlink with ctrl := d.downlink.ctrl ++ [.replayEnd st c.req.tag c.req.frame c.linesSent] } } := by
  rw [Dev.replaySettle_ending current ends, if_pos room,
    Dev.replaySettle_idle (d := Dev.finishRequest _ _) rfl (by rw [Dev.finishRequest_eq]; exact empty), Dev.finishRequest_eq] <;> rfl

theorem Dev.afterControl_of_quiet (quiet : ∀ e, d.uplink.executor ≠ .responding e) : d.afterControl = d.replaySettle := by
  unfold Dev.afterControl
  cases executor : d.uplink.executor with
  | idle => rfl
  | executing => rfl
  | responding e => exact absurd executor (quiet e)

/-- The order of the two offers is free (log 12). -/
theorem Dev.afterControl_of_held {e : Entry} (held : d.uplink.executor = .responding e) :
    d.afterControl = { d with freeCount := d.freeCount + 1 }.replaySettle.reofferResponse ∨
      d.afterControl = { d with freeCount := d.freeCount + 1 }.reofferResponse.replaySettle := by
  unfold Dev.afterControl
  rw [held]
  cases first : Config.endFirst d.freeCount with
  | true => exact .inl (if_pos first)
  | false => exact .inr (if_neg (by simp [first]))

end

/-! ### A cell of a line (R124, R134, R148) -/

section
variable {d : Dev} {p : Plan}

theorem LineBuf.atLastCell_iff (x : LineBuf) : x.atLastCell = true ↔ x.nextCell + 1 = (x.data.length + 1023) / 1024 :=
  decide_eq_true_iff

theorem Dev.updFetcher_congr {r : ReaderId} {f g : Fetcher → Fetcher} (same : f (d.fetcher r) = g (d.fetcher r)) :
    d.updFetcher r f = d.updFetcher r g := by
  cases r with
  | live => exact congrArg (fun x => ({ d with live := { d.live with fetcher := x } } : Dev)) same
  | replay => exact congrArg (fun x => ({ d with replay := { d.replay with fetcher := x } } : Dev)) same

theorem Dev.sendCell_fetcher (kind : CellKind) (bytes : List Byte) (r : ReaderId) :
    (d.sendCell kind bytes).fetcher r = d.fetcher r := by cases r <;> rfl

section
variable {r : ReaderId} {i : BufId} {rest : List BufId} (order : (d.fetcher r).order = i :: rest) (kind : CellKind)
include order

/-- A cell that is not its line's last takes its bytes from the buffer, which stays. -/
theorem Dev.sendLine_more (more : ((d.fetcher r).buf i).atLastCell = false) : d.sendLine r kind =
    (d.sendCell kind (d.lineCell kind ((d.fetcher r).buf i))).updFetcher r fun f => f.setBuf i
      { (d.fetcher r).buf i with state := .sending, nextCell := ((d.fetcher r).buf i).nextCell + 1 } := by
  rw [Dev.sendLine, order]
  dsimp only
  rw [if_neg (by simp [more])]
  refine Dev.updFetcher_congr ?_
  rw [Dev.sendCell_fetcher, Fetcher.cellTaken, if_neg (by simp [more])]

/-- The last cell of a line empties the buffer, which leaves the order, and the reader takes notice. -/
theorem Dev.sendLine_end (ends : ((d.fetcher r).buf i).atLastCell = true) : d.sendLine r kind =
    ((d.sendCell kind (d.lineCell kind ((d.fetcher r).buf i))).updFetcher r fun f =>
      { f.setBuf i .vacant with order := f.order.filter (· ≠ i) }).lineSent r ((d.fetcher r).buf i).last := by
  rw [Dev.sendLine, order]
  dsimp only
  rw [if_pos ends]
  refine congrArg _ (Dev.updFetcher_congr ?_)
  rw [Dev.sendCell_fetcher, Fetcher.cellTaken, if_pos ends]

end

theorem Dev.liveDone_of_waiting {s w : Nat} (active : d.live.active = some s) (waiting : d.live.waiting = some w) :
    d.liveDone p = { d.unmark .live s with live := { d.live.assign p w with waiting := none } } := by
  have same : (d.unmark .live s).live = d.live := rfl
  simp only [Dev.liveDone, active, same, waiting]

theorem Dev.liveDone_of_alone {s : Nat} (active : d.live.active = some s) (alone : d.live.waiting = none) :
    d.liveDone p = { d.unmark .live s with live := { d.live with active := none } } := by
  have same : (d.unmark .live s).live = d.live := rfl
  simp only [Dev.liveDone, active, same, alone]

end

/-- Settles O58: the rank gives the kind of the cell, and the kind says what the cell takes along. -/
theorem cellsAreSent : Obligations.CellsAreSent := by
  intro d q i rest released due period moved plain stamped control x y line carried atEnd emptied unmarked low first
  have ran : exec .cellBoundary ⟨d, q⟩ = .next ⟨d.boundary, q⟩ := exec_cellBoundary_of_reached released due
  have stamps : d.controlCell = control := rfl
  have cell (kind : CellKind) (b : LineBuf) (fin : Bool) (is : b.atLastCell = fin) :
      d.lineCell kind b = line kind b fin := by
    rw [Dev.lineCell, LineBuf.header, is] <;> rfl
  let emptiedQueue : Dev := { d with downlink := moved control [] 0 }
  have controls (queue : d.downlink.ctrl ≠ []) (rank : first ∨ (d.live.fetcher.order = [] ∧ d.replay.fetcher.order = [])) :
      d.boundary = emptiedQueue.afterControl := by
    rw [Dev.boundary, Dev.cellKind_control queue rank] <;> rfl
  refine ⟨fun queue live replay => ?_, fun queue rank => ?_, fun queue rank alone => ?_, fun order filled below => ?_,
    fun silent order filled below => ?_⟩
  case refine_1 =>
    rw [ran, Dev.boundary, Dev.cellKind_fill queue live replay]
    dsimp only
    rw [Dev.sendCell, Downlink.sent, queue] <;> rfl
  case refine_2 =>
    rw [ran, controls queue rank]
    refine ⟨fun quiet => ?_, fun e held => ?_⟩
    · rw [Dev.afterControl_of_quiet (d := emptiedQueue) quiet, ← Dev.thenDo_replayEnd (by exact released)] <;> rfl
    · intro sent
      have response : sent.thenDo .responseOffer = sent.reofferResponse := Dev.thenDo_responseOffer (by exact released)
      have end_ : sent.thenDo .replayEndOffer = sent.replaySettle := Dev.thenDo_replayEnd (by exact released)
      rw [response, end_, Dev.thenDo_replayEnd (by simpa using released), Dev.thenDo_responseOffer (by simpa using released)]
      rcases Dev.afterControl_of_held (d := emptiedQueue) held with done | done
      · exact .inr (by rw [done])
      · exact .inl (by rw [done])
  case refine_3 =>
    rw [ran, controls queue rank]
    refine ⟨fun rests quiet => ?_, fun kind tag st data rests held => ?_, fun c st current ends => ?_⟩
    · rw [Dev.afterControl_of_quiet (d := emptiedQueue) quiet, Dev.replaySettle_rests (d := emptiedQueue) alone rests]
    · have room : emptiedQueue.downlink.ctrl.length < 64 := Nat.zero_lt_succ 63
      rcases Dev.afterControl_of_held (d := emptiedQueue) held with done | done
      · rw [done, Dev.replaySettle_rests (by exact alone) (by exact rests),
          Dev.reofferResponse_of_room (by exact held) (by exact room)] <;> rfl
      · rw [done, Dev.reofferResponse_of_room (by exact held) (by exact room),
          Dev.replaySettle_rests (by exact alone) (by exact rests)] <;> rfl
    · intro freed entry
      have room : emptiedQueue.downlink.ctrl.length < 64 := Nat.zero_lt_succ 63
      refine ⟨fun quiet => ?_, fun kind tag st data held => ?_⟩
      · rw [Dev.afterControl_of_quiet (d := emptiedQueue) quiet,
          Dev.replaySettle_last (by exact alone) (by exact current) ends (by exact room)] <;> rfl
      · rcases Dev.afterControl_of_held (d := emptiedQueue) held with done | done
        · refine ⟨_, .inl rfl, ?_⟩
          rw [done, Dev.replaySettle_last (by exact alone) (by exact current) ends (by exact room),
            Dev.reofferResponse_of_room (by exact held) (by exact Nat.succ_lt_succ (Nat.zero_lt_succ 62))] <;> rfl
        · refine ⟨_, .inr rfl, ?_⟩
          rw [done, Dev.reofferResponse_of_room (by exact held) (by exact room),
            Dev.replaySettle_last (by exact alone) (by exact current) ends
              (by exact Nat.succ_lt_succ (Nat.zero_lt_succ 62))] <;> rfl
  case refine_4 =>
    have offers : d.live.fetcher.offers = true := Fetcher.offers_of_head order filled
    have sends : d.boundary = d.sendLine .live .live := by
      rw [Dev.boundary, Dev.cellKind_of_low below, if_pos offers]
    have head : (d.fetcher .live).order = i :: rest := order
    rw [ran, sends]
    refine ⟨fun more => ?_, fun w working ends => ?_⟩
    · have is : x.atLastCell = false := Bool.eq_false_iff.mpr (mt x.atLastCell_iff.mp more)
      rw [Dev.sendLine_more head .live (by exact is), show (d.fetcher .live).buf i = x from rfl, cell .live x false is] <;> rfl
    · intro l gone
      have is : x.atLastCell = true := x.atLastCell_iff.mpr ends
      let e : Dev := { d with downlink := carried .live x true, live := l }
      have planned : e.plan? = some w.plan := by simp [e, Dev.plan?, working]
      have over_ : d.sendLine .live .live = e.liveLineSent w.plan x.last := by
        rw [Dev.sendLine_end head .live (by exact is), show (d.fetcher .live).buf i = x from rfl, cell .live x true is]
        refine (show _ = e.lineSent .live x.last from rfl).trans ?_
        rw [Dev.lineSent, planned]
      have fetches (f : Dev) (same : f.resetAsserted = false) : f.liveExamine = f.fetchLive := (Dev.fetchLive_eq same).symm
      rw [over_, Dev.liveLineSent]
      refine ⟨fun inner => ?_, fun s final active alone => ?_, fun s v final active waiting => ?_⟩
      · rw [inner, fetches _ (by exact released)] <;> rfl
      · rw [if_pos final, Dev.liveDone_of_alone (d := e) active alone, Dev.liveExamine_idle (.inr rfl)] <;> rfl
      · rw [if_pos final, Dev.liveDone_of_waiting (d := e) active waiting, LiveReader.assign_eq,
          fetches _ (by exact released)]
        split <;> rfl
  case refine_5 =>
    have offers : d.replay.fetcher.offers = true := Fetcher.offers_of_head order filled
    have sends : d.boundary = d.sendLine .replay .replay := by
      rw [Dev.boundary, Dev.cellKind_of_low below, if_neg (by simp [silent]), if_pos offers]
    have head : (d.fetcher .replay).order = i :: rest := order
    rw [ran, sends]
    refine ⟨fun more => ?_, fun c current ends => ?_⟩
    · have is : y.atLastCell = false := Bool.eq_false_iff.mpr (mt y.atLastCell_iff.mp more)
      rw [Dev.sendLine_more head .replay (by exact is), show (d.fetcher .replay).buf i = y from rfl,
        cell .replay y false is] <;> rfl
    · intro sent
      have is : y.atLastCell = true := y.atLastCell_iff.mpr ends
      let e : Dev := { d with downlink := carried .replay y true, replay := sent }
      have over_ : d.sendLine .replay .replay = e.replayLineSent y.last := by
        rw [Dev.sendLine_end head .replay (by exact is), show (d.fetcher .replay).buf i = y from rfl,
          cell .replay y true is] <;> rfl
      have here : e.replay.current = some c := current
      let last : Dev := e.setCurrent (some { c with stage := .ending .done, linesSent := c.linesSent + 1 })
      have ended (final : y.last = true) : e.replayLineSent y.last = last.replaySettle := by
        rw [final, Dev.replayLineSent, here] <;> rfl
      rw [over_]
      refine ⟨fun inner => ?_, fun final => ?_, fun final alone => ?_⟩
      · rw [inner, Dev.replayLineSent, here]
        exact congrArg (fun f => Host.Outcome.next (State.mk f q)) (Dev.fetchReplay_eq (by exact released)).symm
      · rw [ended final, ← Dev.thenDo_replayEnd (by exact released)] <;> rfl
      · have room : d.downlink.ctrl.length < 64 := by
          rcases below with empty | ⟨-, short⟩
          · simp [empty]
          · omega
        rw [ended final, Dev.replaySettle_last (d := last) alone rfl rfl room] <;> rfl

end Sys2Proof.Machine
end

section
/-! SUPPORT. Lines (chapters 3 and 7): O39, O40, O41. -/

namespace Sys2Proof.Machine

/-! ### The tiles of a strip (R42) -/

section
variable {p : Plan}

/-- One tile begins no further right than another. -/
abbrev Plan.LeftOf (p : Plan) (t u : Nat) : Prop := (p.tileAt t).x ≤ (p.tileAt u).x

theorem Plan.insertByX_eq (t : Nat) (l : List Nat) : p.insertByX t l = l.orderedInsert p.LeftOf t := by
  induction l with
  | nil => rfl
  | cons u us ih => rw [Plan.insertByX, List.orderedInsert_cons, ih]

theorem Plan.tilesOf_eq (σ : Nat) :
    p.tilesOf σ = ((List.range p.tiles.length).filter fun t => (p.tileAt t).strip = σ).insertionSort p.LeftOf := by
  have same : p.insertByX = List.orderedInsert p.LeftOf := funext fun t => funext fun l => Plan.insertByX_eq t l
  rw [Plan.tilesOf, same] <;> rfl

theorem Plan.mem_tilesOf {σ t : Nat} : t ∈ p.tilesOf σ ↔ t < p.tiles.length ∧ (p.tileAt t).strip = σ := by
  rw [Plan.tilesOf_eq, List.mem_insertionSort, List.mem_filter, List.mem_range, decide_eq_true_iff]

theorem Plan.tilesOf_nodup (σ : Nat) : (p.tilesOf σ).Nodup := by
  rw [Plan.tilesOf_eq, (List.perm_insertionSort ..).nodup_iff]
  exact List.nodup_range.filter _

theorem Plan.tilesOf_pairwise (σ : Nat) : (p.tilesOf σ).Pairwise p.LeftOf := by
  have total : Std.Total p.LeftOf := ⟨fun t u => Nat.le_total ..⟩
  have trans : IsTrans Nat p.LeftOf := ⟨fun t u v => Nat.le_trans⟩
  rw [Plan.tilesOf_eq]
  exact List.pairwise_insertionSort ..

theorem Plan.lineTiles_of_strip {y σ : Nat} (strip : p.stripOf y = some σ) : p.lineTiles y = p.tilesOf σ := by
  rw [Plan.lineTiles, strip]

/-! ### Damaged segments and sendable lines (R74, R75, R133) -/

theorem Plan.segDamaged_iff (x : Slot) (y t : Nat) :
    p.segDamaged x y t = true ↔ rowIn (x.damage.getD t []) (p.rowOf (p.tileAt t) y) := by
  simp [Plan.segDamaged, Slot.rowDamaged, rowIn]

variable {d : Dev}

theorem Tracker.ctx_of_boundTo {t : Tracker} {s : Nat} {i : CtxId} (bound : t.boundTo s = some i) :
    ∃ c, t.ctx i = some c ∧ c.slot = s := by
  unfold Tracker.boundTo at bound
  split at bound
  · next first =>
    cases bound
    obtain ⟨c, named, slot⟩ : ∃ c, t.ctx0 = some c ∧ c.slot = s := by simpa only [Option.any_eq_true, decide_eq_true_eq] using first
    exact ⟨c, named, slot⟩
  · split at bound
    · next second =>
      cases bound
      obtain ⟨c, named, slot⟩ : ∃ c, t.ctx1 = some c ∧ c.slot = s := by simpa only [Option.any_eq_true, decide_eq_true_eq] using second
      exact ⟨c, named, slot⟩
    · cases bound

/-- A line of a FILLING frame may be sent once no front of its strip stands at its row or before it (R74). -/
theorem Dev.sendable_of_filling {s y σ : Nat} {i : CtxId} {c : Context} (filling : (d.ring.slot s).state = .filling)
    (strip : p.stripOf y = some σ) (bound : d.tracker.boundTo s = some i) (named : d.tracker.ctx i = some c) :
    d.sendable p s y = true ↔ ∀ t, t < p.tiles.length → (p.tileAt t).strip = σ →
      (c.fronts.getD t .start).status ≠ .running ∨ p.rowOf (p.tileAt t) y < (c.fronts.getD t .start).row := by
  simp only [Dev.sendable, filling, bound, Option.bind_some, named, Plan.lineTiles_of_strip strip, List.all_eq_true,
    Plan.mem_tilesOf, Bool.or_eq_true, decide_eq_true_eq, and_imp]

/-- The strip's next line may be sent (R133). -/
def Dev.gives (d : Dev) (p : Plan) (s σ : Nat) : Prop := ∃ g, d.live.strips[σ]? = some g ∧ 1 ≤ g.remaining ∧
  (p.source = .test ∨ d.sendable p s g.line = true)

theorem Dev.gives_iff {s σ : Nat} : (0 < (d.live.strips.getD σ { line := 0, remaining := 0 }).remaining &&
    d.liveMaySend p s (d.live.strips.getD σ { line := 0, remaining := 0 }).line) = true ↔ d.gives p s σ := by
  simp only [Dev.gives, Dev.liveMaySend, List.getD_eq_getElem?_getD, Bool.and_eq_true, Bool.or_eq_true, decide_eq_true_eq]
  cases d.live.strips[σ]? with
  | none => simp
  | some g => simp [Nat.succ_le_iff]

theorem Dev.arrivalChoice_eq_some {s τ : Nat} : d.arrivalChoice p s = some τ ↔ ∃ k, k < p.strips.length ∧
    τ = (d.live.rotation + k) % p.strips.length ∧ d.gives p s τ ∧
      ∀ j, j < k → ¬d.gives p s ((d.live.rotation + j) % p.strips.length) := by
  simp only [Dev.arrivalChoice, List.find?_eq_some_iff_getElem, Dev.gives_iff, List.length_map, List.length_range,
    List.getElem_map, List.getElem_range, Bool.not_eq_true', ← Bool.not_eq_true]
  constructor
  · rintro ⟨gives, k, inside, rfl, before⟩
    exact ⟨k, inside, rfl, gives, before⟩
  · rintro ⟨k, inside, rfl, gives, before⟩
    exact ⟨gives, k, inside, rfl, before⟩

theorem Dev.arrivalChoice_eq_none {s : Nat} : d.arrivalChoice p s = none ↔
    ∀ k, k < p.strips.length → ¬d.gives p s ((d.live.rotation + k) % p.strips.length) := by
  simp only [Dev.arrivalChoice, List.find?_eq_none, Dev.gives_iff, List.mem_map, List.mem_range, forall_exists_index, and_imp,
    forall_apply_eq_imp_iff₂]

/-- Settles O39: a slot's state and its context's fronts decide, and the choice is a first match. -/
theorem linesAreSendable : Obligations.LinesAreSendable := by
  intro d p s y σ strip mine gives turn
  refine ⟨fun only => ?_, fun x t => Plan.segDamaged_iff x y t, fun τ => Dev.arrivalChoice_eq_some, Dev.arrivalChoice_eq_none⟩
  cases state : (d.ring.slot s).state with
  | empty => simp [Dev.sendable, state]
  | closed => simp [Dev.sendable, state]
  | filling =>
    simp only [reduceCtorEq, false_or, true_and]
    constructor
    · intro sends
      cases bound : d.tracker.boundTo s with
      | none => simp [Dev.sendable, state, bound] at sends
      | some i =>
        obtain ⟨c, named, slot⟩ := Tracker.ctx_of_boundTo bound
        exact ⟨i, c, named, slot, (Dev.sendable_of_filling state strip bound named).mp sends⟩
    · rintro ⟨i, c, named, slot, done⟩
      have bound := Tracker.boundTo_of_unique named slot fun j e other same => only j i e c other named (by rw [same, slot])
      exact (Dev.sendable_of_filling state strip bound named).mpr done

end

end Sys2Proof.Machine
end

section
/-! SUPPORT. The requests of a line (sections 7.1 and 7.2): O40. -/

namespace Sys2Proof.Machine

/-! ### The runs of a line (R51, R126, R127) -/

section
variable {p : Plan}

theorem Plan.runOf_xa {s y x0 x1 : Nat} {t : Tile} {r : Run} (meets : p.runOf s y x0 x1 t = some r) : r.xa = max x0 t.x := by
  unfold Plan.runOf at meets
  dsimp only at meets
  split at meets
  · cases meets
    rfl
  · cases meets

theorem Plan.runs_of_strip {s y x0 x1 σ : Nat} (strip : p.stripOf y = some σ) :
    p.runs s y x0 x1 = (p.tilesOf σ).filterMap fun t => p.runOf s y x0 x1 (p.tileAt t) := by
  rw [Plan.runs, strip]

theorem Plan.mem_runs {s y x0 x1 σ : Nat} (strip : p.stripOf y = some σ) {r : Run} : r ∈ p.runs s y x0 x1 ↔
    ∃ t, t < p.tiles.length ∧ (p.tileAt t).strip = σ ∧ p.runOf s y x0 x1 (p.tileAt t) = some r := by
  simp only [Plan.runs_of_strip strip, List.mem_filterMap, Plan.mem_tilesOf, and_assoc]

theorem Plan.runs_pairwise {s y x0 x1 σ : Nat} (strip : p.stripOf y = some σ) :
    (p.runs s y x0 x1).Pairwise fun a b => a.xa ≤ b.xa := by
  rw [Plan.runs_of_strip strip, List.pairwise_filterMap]
  refine (p.tilesOf_pairwise σ).imp fun {t u} left a meets b meets' => ?_
  rw [Plan.runOf_xa meets, Plan.runOf_xa meets']
  exact max_le_max_left _ left

end

/-! ### The requests of a run (R122) -/

section
variable {bpp : Nat} {r : Run}

/-- One request of a run, after `done` bytes of it and before `more` further requests. -/
structure Run.Cut (bpp : Nat) (r : Run) (done : Nat) (q : FetchReq) (more : Prop) : Prop where
  off : q.off = done
  addr : q.addr = r.start + q.off
  some_ : 1 ≤ q.len
  most : q.len ≤ 256
  within : q.addr % 256 + q.len ≤ 256
  aligned : more → (q.addr + q.len) % 256 = 0
  xa : q.xa = r.xa
  xb : q.xb = r.xb
  mirror : q.mirror = r.mirror
  bpp : q.bpp = bpp

theorem Run.requests_sum (fuel : Nat) : ∀ off n, n ≤ fuel → ((r.requests bpp fuel off n).map (·.len)).sum = n := by
  induction fuel with
  | zero =>
    intro off n le
    simp [Run.requests, Nat.le_zero.mp le]
  | succ fuel ih =>
    intro off n le
    rw [Run.requests]
    split
    · next none_ => simp [none_]
    · rw [List.map_cons, List.sum_cons, ih _ _ (by omega)]
      dsimp only
      omega

/-- Every request is cut at a multiple of 256, or is the run's last. -/
theorem Run.requests_cut (fuel : Nat) : ∀ off n (l m : List FetchReq) (q : FetchReq),
    r.requests bpp fuel off n = l ++ q :: m → r.Cut bpp (off + (l.map (·.len)).sum) q (m ≠ []) := by
  induction fuel with
  | zero =>
    intro off n l m q is
    simp [Run.requests] at is
  | succ fuel ih =>
    intro off n l m q is
    rw [Run.requests] at is
    split at is
    · simp at is
    · next some_ =>
      cases l with
      | nil =>
        obtain ⟨rfl, rest⟩ := List.cons.inj is
        refine ⟨by simp, rfl, ?_, ?_, ?_, fun more => ?_, rfl, rfl, rfl, rfl⟩ <;> dsimp only
        · omega
        · omega
        · omega
        · have left : n - min n (256 - (r.start + off) % 256) ≠ 0 := by
            intro none_
            refine more (rest.symm.trans ?_)
            cases fuel <;> simp [Run.requests, none_]
          omega
      | cons h l =>
        obtain ⟨rfl, rest⟩ := List.cons.inj is
        have cut := ih _ _ _ _ _ rest
        rw [List.map_cons, List.sum_cons, ← Nat.add_assoc]
        exact cut

end

/-- Settles O40: the runs, their requests, and the buffer of a fetch. -/
theorem linesAreRequested : Obligations.LinesAreRequested := by
  intro p x s y
  refine ⟨fun t => rfl, fun x0 x1 σ strip => ⟨fun r => Plan.mem_runs strip, Plan.runs_pairwise strip⟩, fun r => ?_,
    fun f last i σ sensor strip => ?_⟩
  · intro n
    refine ⟨Run.requests_sum _ _ _ le_rfl, fun l m q is => ?_⟩
    have cut := Run.requests_cut _ _ _ _ _ _ is
    exact ⟨by rw [cut.off, Nat.zero_add], cut.addr, cut.some_, cut.most, cut.within, cut.aligned, cut.xa, cut.xb, cut.mirror,
      cut.bpp⟩
  · refine ⟨p.tilesOf σ, fun t => Plan.mem_tilesOf, p.tilesOf_nodup σ, p.tilesOf_pairwise σ, ?_⟩
    intro all b
    have tiles : p.lineTiles y = p.tilesOf σ := Plan.lineTiles_of_strip strip
    have begun : p.beginBuf x s y last = { b with state := if all.isEmpty then .ready else .fetching, todo := all } := by
      rw [Plan.beginBuf, sensor, Plan.lineRequests, tiles] <;> rfl
    refine ⟨fun none_ => ?_, fun r rest is => ?_⟩
    · rw [Fetcher.begin_, begun, none_]
      cases i <;> rfl
    · rw [Fetcher.begin_, begun, is]
      cases i <;> rfl

end Sys2Proof.Machine
end

section
/-! SUPPORT. A run's bytes and their places in the line (sections 3.5 and 7.1): O41. -/

namespace Sys2Proof.Machine

/-! ### Where a run's bytes lie (R48, R50, R51) -/

section
variable {p : Plan} {s y x0 x1 : Nat} {t : Tile}

theorem Plan.runOf_of_apart (apart : min x1 (t.x + t.active) ≤ max x0 t.x) : p.runOf s y x0 x1 t = none :=
  if_neg (Nat.not_lt.mpr apart)

theorem Plan.runOf_of_meet (meets : max x0 t.x < min x1 (t.x + t.active)) : p.runOf s y x0 x1 t = some
    { start := p.rowStart s t (p.rowOf t y) +
        (if t.mirror then t.storedCol (min x1 (t.x + t.active) - 1) else t.storedCol (max x0 t.x)) * p.bpp
      xa := max x0 t.x, xb := min x1 (t.x + t.active), mirror := t.mirror } :=
  if_pos meets

/-- The `j`-th stored column of a run carries its `j`-th output column, from the right in a mirrored tile (R48). -/
theorem Tile.storedCol_run {xa xb j : Nat} (trims : t.trimLeft + t.trimRight < t.cols) (left : t.x ≤ xa)
    (right : xb ≤ t.x + t.active) (inside : j < xb - xa) :
    t.storedCol (if t.mirror then xb - 1 - j else xa + j) =
      (if t.mirror then t.storedCol (xb - 1) else t.storedCol xa) + j := by
  unfold Tile.active at right
  cases mirror : t.mirror with
  | true =>
    simp only [Tile.storedCol, mirror, if_true]
    omega
  | false =>
    simp only [Tile.storedCol, mirror, Bool.false_eq_true, if_false]
    omega

theorem Plan.run_address {xa xb k : Nat} (trims : t.trimLeft + t.trimRight < t.cols) (left : t.x ≤ xa)
    (right : xb ≤ t.x + t.active) (inside : k < (xb - xa) * p.bpp) :
    p.rowStart s t (p.rowOf t y) + (if t.mirror then t.storedCol (xb - 1) else t.storedCol xa) * p.bpp + k =
      p.pixelAddr s t (if t.mirror then xb - 1 - k / p.bpp else xa + k / p.bpp) y + k % p.bpp := by
  rw [Plan.pixelAddr, Tile.storedCol_run trims left right (Nat.div_lt_of_lt_mul (Nat.mul_comm .. ▸ inside)), Nat.add_mul]
  have whole := Nat.div_add_mod' k p.bpp
  omega

end

/-! ### Where a response's bytes go (R122) -/

section
variable {q : FetchReq}

theorem FetchReq.place_lt {k : Nat} (some_ : 1 ≤ q.bpp) (inside : k < (q.xb - q.xa) * q.bpp) :
    q.place k < q.xb * q.bpp := by
  have column : k / q.bpp < q.xb - q.xa := Nat.div_lt_of_lt_mul (Nat.mul_comm .. ▸ inside)
  have byte := Nat.mod_lt k some_
  have next : (if q.mirror then q.xb - 1 - k / q.bpp else q.xa + k / q.bpp) + 1 ≤ q.xb := by
    generalize k / q.bpp = i at column
    split <;> omega
  calc q.place k < (if q.mirror then q.xb - 1 - k / q.bpp else q.xa + k / q.bpp) * q.bpp + q.bpp :=
        Nat.add_lt_add_left byte _
    _ = ((if q.mirror then q.xb - 1 - k / q.bpp else q.xa + k / q.bpp) + 1) * q.bpp := (Nat.succ_mul ..).symm
    _ ≤ q.xb * q.bpp := Nat.mul_le_mul_right _ next

/-- Two bytes of a run never have one place. -/
theorem FetchReq.place_inj {j k : Nat} (some_ : 1 ≤ q.bpp) (inside : j < (q.xb - q.xa) * q.bpp)
    (inside' : k < (q.xb - q.xa) * q.bpp) (same : q.place j = q.place k) : j = k := by
  have column (k : Nat) : q.place k / q.bpp = if q.mirror then q.xb - 1 - k / q.bpp else q.xa + k / q.bpp := by
    rw [FetchReq.place, Nat.mul_comm, Nat.mul_add_div some_, Nat.div_eq_of_lt (Nat.mod_lt k some_), Nat.add_zero]
  have byte (k : Nat) : q.place k % q.bpp = k % q.bpp := by
    rw [FetchReq.place, Nat.mul_add_mod_self_right, Nat.mod_mod]
  have bound (k : Nat) (inside : k < (q.xb - q.xa) * q.bpp) : k / q.bpp < q.xb - q.xa :=
    Nat.div_lt_of_lt_mul (Nat.mul_comm .. ▸ inside)
  have columns : j / q.bpp = k / q.bpp := by
    have equal := (column j).symm.trans ((congrArg (· / q.bpp) same).trans (column k))
    have first := bound j inside
    have second := bound k inside'
    generalize j / q.bpp = a at equal first ⊢
    generalize k / q.bpp = b at equal second ⊢
    split at equal <;> omega
  have bytes : j % q.bpp = k % q.bpp := (byte j).symm.trans ((congrArg (· % q.bpp) same).trans (byte k))
  rw [← Nat.div_add_mod j q.bpp, columns, bytes, Nat.div_add_mod]

theorem FetchReq.fill_length (bytes : List Byte) : ∀ off line, (q.fill off bytes line).length = line.length := by
  induction bytes with
  | nil => exact fun off line => rfl
  | cons b bs ih => exact fun off line => (ih ..).trans List.length_set

theorem FetchReq.fill_other {u : Nat} (bytes : List Byte) : ∀ off line,
    (∀ j, j < bytes.length → u ≠ q.place (off + j)) → (q.fill off bytes line)[u]? = (line)[u]? := by
  induction bytes with
  | nil => exact fun off line apart => rfl
  | cons b bs ih =>
    intro off line apart
    have rest := ih (off + 1) (line.set (q.place off) b) fun j inside => by
      rw [Nat.add_right_comm]
      exact apart (j + 1) (Nat.succ_lt_succ inside)
    have here : q.place off ≠ u := (apart 0 (Nat.succ_pos _)).symm
    rw [FetchReq.fill, rest, List.getElem?_set_ne here]

theorem FetchReq.fill_at {b : Byte} (some_ : 1 ≤ q.bpp) (bytes : List Byte) : ∀ (off : Nat) (line : List Byte)
    (j : Nat), off + bytes.length ≤ (q.xb - q.xa) * q.bpp → q.xb * q.bpp ≤ line.length → bytes[j]? = some b →
    (q.fill off bytes line)[q.place (off + j)]? = some b := by
  induction bytes with
  | nil => exact fun off line j fits long is => by cases is
  | cons c bs ih =>
    intro off line j fits long is
    rw [List.length_cons] at fits
    cases j with
    | zero =>
      have here := FetchReq.place_lt (k := off) some_ (by omega)
      rw [FetchReq.fill, FetchReq.fill_other, Nat.add_zero, List.getElem?_set_self (by omega)]
      · exact is
      · intro j inside same
        have := FetchReq.place_inj some_ (by omega) (by omega) same
        omega
    | succ j =>
      have rest := ih (off + 1) (line.set (q.place off) c) j (by omega) (by rw [List.length_set]; exact long) is
      rwa [Nat.add_right_comm] at rest

end

/-- Settles O41: the j-th stored column of a run carries its j-th output column, and no two bytes have one place. -/
theorem runsMeetTheirPixels : Obligations.RunsMeetTheirPixels := by
  refine ⟨fun p s y x0 x1 t trims => ?_, fun q off bytes line some_ fits long => ?_⟩
  · intro width xa xb
    refine ⟨fun apart => Plan.runOf_of_apart apart, fun meets => ⟨_, Plan.runOf_of_meet meets, rfl, rfl, rfl, fun k inside => ?_⟩⟩
    exact Plan.run_address trims (le_max_right ..) (min_le_right ..) inside
  · intro place
    exact ⟨FetchReq.fill_length bytes off line, fun j b is => FetchReq.fill_at some_ bytes off line j fits long is,
      fun u apart => FetchReq.fill_other bytes off line apart⟩

end Sys2Proof.Machine
end

section
/-! SUPPORT. The checks of validation (section 2.2) as statements about numbers: O21. -/

namespace Sys2Proof.Machine

/-- Two address ranges share no byte. -/
def Disjoint (a b c e : Nat) : Prop := ∀ x, ¬((a ≤ x ∧ x < b) ∧ c ≤ x ∧ x < e)

theorem not_overlaps_iff (a b c e : Nat) : (!overlaps a b c e) = true ↔ Disjoint a b c e := by
  simp only [overlaps, Bool.not_eq_true', Bool.and_eq_false_iff, decide_eq_false_iff_not, Nat.not_lt, Disjoint]
  constructor
  · omega
  · intro apart
    have := apart (max a c)
    omega

/-! ### The order of the groups (R20) -/

theorem check_eq_some_iff (b : Bool) (r s : Group) (rest : Option Group) :
    (if !b then some r else rest) = some s ↔ (b = false ∧ r = s) ∨ (b = true ∧ rest = some s) := by
  cases b <;> simp

theorem Staged.failure_eq_some_iff (g : Staged) (planAddr mem : Nat) (s : Group) : g.failure planAddr mem = some s ↔
    match s with
    | .ring => g.ringOk planAddr mem = false
    | .slots => g.ringOk planAddr mem = true ∧ g.slotsOk = false
    | .speed => g.ringOk planAddr mem = true ∧ g.slotsOk = true ∧ g.speedOk = false
    | .period => g.ringOk planAddr mem = true ∧ g.slotsOk = true ∧ g.speedOk = true ∧ g.periodOk = false
    | .format => g.ringOk planAddr mem = true ∧ g.slotsOk = true ∧ g.speedOk = true ∧ g.periodOk = true ∧ g.formatOk = false
    | .strips => g.ringOk planAddr mem = true ∧ g.slotsOk = true ∧ g.speedOk = true ∧ g.periodOk = true ∧
        g.formatOk = true ∧ g.stripsOk = false
    | .tiles => g.ringOk planAddr mem = true ∧ g.slotsOk = true ∧ g.speedOk = true ∧ g.periodOk = true ∧
        g.formatOk = true ∧ g.stripsOk = true ∧ g.tilesOk = false
    | .ret => g.ringOk planAddr mem = true ∧ g.slotsOk = true ∧ g.speedOk = true ∧ g.periodOk = true ∧
        g.formatOk = true ∧ g.stripsOk = true ∧ g.tilesOk = true ∧ g.returnOk planAddr mem = false := by
  cases s <;> simp only [Staged.failure, check_eq_some_iff, reduceCtorEq, and_false, and_true, or_false, false_or]

/-! ### Strips (R41) -/

theorem stripsCover_iff {h : Nat} (l : List Strip) : ∀ y, stripsCover h y l = true ↔
    (∀ i s, l[i]? = some s → s.first = y + ((l.take i).map (·.height)).sum) ∧ y + (l.map (·.height)).sum = h := by
  induction l with
  | nil => simp [stripsCover]
  | cons s ss ih =>
    intro y
    rw [stripsCover, Bool.and_eq_true, decide_eq_true_eq, ih, List.map_cons, List.sum_cons, Nat.add_assoc, ← and_assoc]
    refine and_congr_left fun _ => ⟨fun ⟨first, rest⟩ i => ?_, fun all => ⟨?_, fun i u is => ?_⟩⟩
    · cases i with
      | zero => simpa using first
      | succ i =>
        intro u is
        rw [List.take_succ_cons, List.map_cons, List.sum_cons, ← Nat.add_assoc]
        exact rest i u is
    · simpa using all 0 s rfl
    · have := all (i + 1) u is
      rwa [List.take_succ_cons, List.map_cons, List.sum_cons, ← Nat.add_assoc] at this

/-! ### The tiles of a strip (R42) -/

/-- The columns that two tiles carry are apart. -/
def Tile.Apart (t u : Tile) : Prop := t.x + t.active ≤ u.x ∨ u.x + u.active ≤ t.x

/-- Tiles in rising X abut exactly if they share no column and cover every column. -/
theorem tilesAbut_iff {w : Nat} (l : List Tile) : ∀ x₀, (∀ t ∈ l, 1 ≤ t.active) → l.Pairwise (fun t u => t.x ≤ u.x) →
    (tilesAbut w x₀ l = true ↔ x₀ ≤ w ∧ (∀ x, (x₀ ≤ x ∧ x < w) ↔ ∃ t ∈ l, t.x ≤ x ∧ x < t.x + t.active) ∧
      l.Pairwise Tile.Apart) := by
  induction l with
  | nil =>
    intro x₀ _ _
    simp only [tilesAbut, decide_eq_true_eq, List.not_mem_nil, false_and, exists_false, iff_false, List.Pairwise.nil, and_true]
    constructor
    · rintro rfl
      exact ⟨le_rfl, fun x => by omega⟩
    · rintro ⟨le, none_⟩
      have := none_ x₀
      omega
  | cons t ts ih =>
    intro x₀ wide rises
    obtain ⟨wideT, wideTs⟩ := List.forall_mem_cons.mp wide
    obtain ⟨left, risesTs⟩ := List.pairwise_cons.mp rises
    rw [tilesAbut, Bool.and_eq_true, decide_eq_true_eq, ih _ wideTs risesTs, List.pairwise_cons]
    simp only [List.mem_cons, exists_eq_or_imp]
    constructor
    · rintro ⟨rfl, le, cover, apart⟩
      refine ⟨by omega, fun x => ?_, fun u hu => .inl ?_, apart⟩
      · rw [← cover]
        omega
      · exact ((cover u.x).mpr ⟨u, hu, le_rfl, Nat.lt_add_of_pos_right (wideTs u hu)⟩).1
    · rintro ⟨le, cover, apartT, apart⟩
      have after (u : Tile) (hu : u ∈ ts) : t.x + t.active ≤ u.x := by
        have := left u hu
        have := wideTs u hu
        rcases apartT u hu with before | behind <;> omega
      have begins := (cover t.x).mpr (.inl ⟨le_rfl, Nat.lt_add_of_pos_right wideT⟩)
      have ends := (cover (t.x + t.active - 1)).mpr (.inl (by omega))
      have first : t.x = x₀ := by
        rcases (cover x₀).mp (by omega) with here | ⟨u, hu, there⟩
        · omega
        · have := after u hu
          omega
      refine ⟨first, by omega, fun x => ⟨fun inside => ?_, fun ⟨u, hu, there⟩ => ?_⟩, apart⟩
      · rcases (cover x).mp (by omega) with here | there
        · omega
        · exact there
      · have := after u hu
        have := (cover x).mpr (.inr ⟨u, hu, there⟩)
        omega

section
variable {p : Plan}

/-- The tiles of a strip in rising X are the plan's tiles of that strip. -/
theorem Plan.tilesOf_perm (σ : Nat) : ((p.tilesOf σ).map p.tileAt).Perm (p.tiles.filter (·.strip = σ)) := by
  have all : (List.range p.tiles.length).map p.tileAt = p.tiles := by
    refine List.ext_getElem (by simp) fun t ht inside => ?_
    simp [Plan.tileAt, inside]
  have filtered : ((List.range p.tiles.length).filter fun t => (p.tileAt t).strip = σ).map p.tileAt =
      p.tiles.filter (·.strip = σ) := by
    conv => rhs; rw [← all, List.filter_map]
    rfl
  rw [Plan.tilesOf_eq, ← filtered]
  exact (List.perm_insertionSort ..).map _

theorem Plan.tilesAbut_tilesOf {σ w : Nat} (wide : ∀ t ∈ p.tiles, 1 ≤ t.active) :
    tilesAbut w 0 ((p.tilesOf σ).map p.tileAt) = true ↔
      (∀ x, x < w ↔ ∃ t ∈ p.tiles, t.strip = σ ∧ t.x ≤ x ∧ x < t.x + t.active) ∧
        p.tiles.Pairwise fun t u => t.strip = σ → u.strip = σ → t.Apart u := by
  have perm := p.tilesOf_perm σ
  have symm {t u : Tile} (apart : t.Apart u) : u.Apart t := Or.symm apart
  have rises : ((p.tilesOf σ).map p.tileAt).Pairwise fun t u => t.x ≤ u.x := List.pairwise_map.mpr (p.tilesOf_pairwise σ)
  rw [tilesAbut_iff _ 0 (fun t ht => wide t (List.mem_filter.mp (perm.mem_iff.mp ht)).1) rises,
    perm.pairwise_iff symm, List.pairwise_filter]
  simp only [Nat.zero_le, true_and, perm.mem_iff, List.mem_filter, decide_eq_true_eq, and_assoc]

/-- The windows lie in the stride, and no two of them meet (R43). -/
theorem Plan.windowsOk_iff (l : List Tile) : p.windowsOk l = true ↔ (∀ t ∈ l, p.windowEnd t ≤ p.stride) ∧
    l.Pairwise fun t u => p.windowEnd t ≤ u.offset ∨ p.windowEnd u ≤ t.offset := by
  induction l with
  | nil => simp [Plan.windowsOk]
  | cons t ts ih =>
    simp only [Plan.windowsOk, Bool.and_eq_true, decide_eq_true_eq, List.all_eq_true, Plan.windowsApart, Bool.or_eq_true, ih,
      List.forall_mem_cons, List.pairwise_cons]
    tauto

end

section
variable {g : Staged}

theorem Staged.windowEnd_eq (t : Tile) : g.toPlan.windowEnd t =
    t.offset + (t.lead + (g.strips[t.strip]?.map (·.height)).getD 0) * t.pitch := by
  rw [Plan.windowEnd, Plan.rows, Plan.stripAt, List.getD_eq_getElem?_getD, show g.toPlan.strips = g.strips from rfl]
  cases g.strips[t.strip]? <;> rfl

theorem Staged.tileOk_iff (counted : g.strips.length = g.stripCount) (t : Tile) : g.toPlan.tileOk t = true ↔
    t.strip < g.stripCount ∧ t.offset % 64 = 0 ∧ t.pitch % 64 = 0 ∧ t.cols * g.bpp ≤ t.pitch ∧ t.pitch ≤ 65536 ∧
      (1 ≤ t.cols ∧ t.cols ≤ 8192) ∧ t.lead ≤ 64 ∧ t.trimLeft + t.trimRight < t.cols := by
  rw [← counted]
  simp only [Plan.tileOk, Bool.and_eq_true, decide_eq_true_eq, and_assoc]
  exact Iff.rfl

/-- TILES (R21, R42, R43), for a snapshot whose strips were all read. -/
theorem Staged.tilesOk_iff (counted : g.strips.length = g.stripCount) : g.tilesOk = true ↔
    (1 ≤ g.tileCount ∧ g.tileCount ≤ 8) ∧
    (∀ t ∈ g.tiles, g.toPlan.tileOk t = true ∧ g.toPlan.windowEnd t ≤ g.stride) ∧
    (∀ σ, σ < g.stripCount → 1 ≤ (g.tiles.filter (·.strip = σ)).length ∧ (g.tiles.filter (·.strip = σ)).length ≤ 4 ∧
      ∀ x, x < g.width ↔ ∃ t ∈ g.tiles, t.strip = σ ∧ t.x ≤ x ∧ x < t.x + t.active) ∧
    g.tiles.Pairwise fun t u => (t.strip = u.strip → t.Apart u) ∧
      (g.toPlan.windowEnd t ≤ u.offset ∨ g.toPlan.windowEnd u ≤ t.offset) := by
  have count (σ : Nat) : (g.toPlan.tilesOf σ).length = (g.tiles.filter (·.strip = σ)).length :=
    (List.length_map _).symm.trans (g.toPlan.tilesOf_perm σ).length_eq
  simp only [Staged.tilesOk, Bool.and_eq_true, decide_eq_true_eq, List.all_eq_true, List.mem_range, count, Plan.windowsOk_iff,
    and_assoc]
  rw [show g.toPlan.tiles = g.tiles from rfl, show g.toPlan.strips.length = g.stripCount from counted]
  constructor
  · rintro ⟨some_, most, ok, strips, windows, apart⟩
    have wide (t : Tile) (ht : t ∈ g.toPlan.tiles) : 1 ≤ t.active := by
      obtain ⟨-, -, -, -, -, -, -, trims⟩ := (Staged.tileOk_iff counted t).mp (ok t ht)
      unfold Tile.active
      omega
    refine ⟨some_, most, fun t ht => ⟨ok t ht, windows t ht⟩, fun σ hσ => ?_, List.pairwise_iff_forall_sublist.mpr ?_⟩
    · obtain ⟨least, few, abut⟩ := strips σ hσ
      exact ⟨least, few, ((Plan.tilesAbut_tilesOf wide).mp abut).1⟩
    · intro t u pair
      have known : t ∈ g.tiles := pair.subset List.mem_cons_self
      obtain ⟨strip, -⟩ := (Staged.tileOk_iff counted t).mp (ok t known)
      obtain ⟨-, -, abut⟩ := strips _ strip
      exact ⟨fun same => List.pairwise_iff_forall_sublist.mp ((Plan.tilesAbut_tilesOf wide).mp abut).2 pair rfl same.symm,
        List.pairwise_iff_forall_sublist.mp apart pair⟩
  · rintro ⟨some_, most, ok, strips, apart⟩
    have wide (t : Tile) (ht : t ∈ g.toPlan.tiles) : 1 ≤ t.active := by
      obtain ⟨-, -, -, -, -, -, -, trims⟩ := (Staged.tileOk_iff counted t).mp (ok t ht).1
      unfold Tile.active
      omega
    refine ⟨some_, most, fun t ht => (ok t ht).1, fun σ hσ => ?_, fun t ht => (ok t ht).2, apart.imp fun h => h.2⟩
    obtain ⟨least, few, cover⟩ := strips σ hσ
    exact ⟨least, few, (Plan.tilesAbut_tilesOf wide).mpr ⟨cover, apart.imp fun h one other => h.1 (one.trans other.symm)⟩⟩

/-- STRIPS (R21, R41). -/
theorem Staged.stripsOk_iff : g.stripsOk = true ↔ (1 ≤ g.stripCount ∧ g.stripCount ≤ 4) ∧ (∀ s ∈ g.strips, 1 ≤ s.height) ∧
    (∀ i s, g.strips[i]? = some s → s.first = ((g.strips.take i).map (·.height)).sum) ∧
      (g.strips.map (·.height)).sum = g.height := by
  simp only [Staged.stripsOk, Bool.and_eq_true, decide_eq_true_eq, List.all_eq_true, stripsCover_iff, Nat.zero_add, and_assoc]

end

/-- Settles O21: every group's checks say what the numbers must be, and the first failing group is the reason. -/
theorem validationOrder : Obligations.ValidationOrder := by
  intro g planAddr mem stripsRead tilesRead ringEnd apart width stop ring slots speed period format strips tiles ret fails
  have ringIff : g.ringOk planAddr mem = true ↔ ring := by
    simp only [Staged.ringOk, Bool.and_eq_true, decide_eq_true_eq, not_overlaps_iff, and_assoc]
    exact Iff.rfl
  have slotsIff : g.slotsOk = true ↔ slots := by
    simp only [Staged.slotsOk, Bool.and_eq_true, decide_eq_true_eq]
    exact Iff.rfl
  have speedIff : g.speedOk = true ↔ speed := by
    simp only [Staged.speedOk, List.contains_iff_mem, List.mem_cons, List.not_mem_nil, or_false]
    exact Iff.rfl
  have periodIff : g.periodOk = true ↔ period := by
    simp only [Staged.periodOk, Bool.and_eq_true, decide_eq_true_eq]
    exact Iff.rfl
  have formatIff : g.formatOk = true ↔ format := by
    simp only [Staged.formatOk, Bool.and_eq_true, decide_eq_true_eq, and_assoc, format]
  have stripsIff : g.stripsOk = true ↔ strips := Staged.stripsOk_iff
  have retIff : g.returnOk planAddr mem = true ↔ ret := by
    simp only [Staged.returnOk, Bool.or_eq_true, Bool.and_eq_true, decide_eq_true_eq, not_overlaps_iff, and_assoc, ret]
    exact Iff.rfl
  have tilesIff (some_ : strips) : g.tilesOk = true ↔ tiles := by
    obtain ⟨⟨-, few⟩, -⟩ := some_
    have counted : g.strips.length = g.stripCount := stripsRead.trans (Nat.min_eq_right few)
    rw [Staged.tilesOk_iff counted]
    simp only [Staged.tileOk_iff counted, Staged.windowEnd_eq, and_assoc]
    simp only [tiles, and_assoc]
    exact Iff.rfl
  have no {b : Bool} {P : Prop} (iff : b = true ↔ P) : b = false ↔ ¬P := by rw [← iff, Bool.not_eq_true]
  simp only [fails, Staged.failure_eq_some_iff, Staged.failure_eq_none_iff, ringIff, no ringIff, slotsIff, no slotsIff, speedIff,
    no speedIff, periodIff, no periodIff, formatIff, no formatIff, stripsIff, no stripsIff, retIff, no retIff]
  by_cases whole : strips
  · simp only [tilesIff whole, no (tilesIff whole), and_self]
  · simp only [whole, false_and, and_false, and_self]

end Sys2Proof.Machine
end

section
/-! SUPPORT. The forward and the reverse map of the stitch geometry (chapter 3): O38. -/

namespace Sys2Proof.Machine

section
variable {p : Plan}

/-! ### The forward map (R44, R45) -/

theorem Plan.tileAt_of_lt {t : Nat} (inside : t < p.tiles.length) : p.tileAt t = p.tiles[t] := by
  simp [Plan.tileAt, inside]

theorem Plan.tileOfOffset_of_window {t u : Nat} (inside : t < p.tiles.length)
    (apart : p.tiles.Pairwise fun t u => p.windowEnd t ≤ u.offset ∨ p.windowEnd u ≤ t.offset)
    (low : (p.tileAt t).offset ≤ u) (high : u < p.windowEnd (p.tileAt t)) : p.tileOfOffset u = some t := by
  rw [Plan.tileAt_of_lt inside] at low high
  refine List.findIdx?_eq_some_iff_getElem.mpr ⟨inside, by simp [low, high], fun j before => ?_⟩
  have := List.pairwise_iff_getElem.mp apart j t (by omega) inside before
  simp only [Bool.and_eq_true, decide_eq_true_eq]
  omega

/-- A data byte of a row lies where the forward map finds it. -/
theorem Plan.locate_of_byte {s t r b : Nat} (slot : s < p.slots) (inside : t < p.tiles.length)
    (ends : p.windowEnd (p.tileAt t) ≤ p.stride)
    (apart : p.tiles.Pairwise fun t u => p.windowEnd t ≤ u.offset ∨ p.windowEnd u ≤ t.offset)
    (row : r < p.rows (p.tileAt t)) (byte : b < p.rowLen (p.tileAt t)) (fits : p.rowLen (p.tileAt t) ≤ (p.tileAt t).pitch) :
    p.locate (p.rowStart s (p.tileAt t) r + b) = some { slot := s, tile := t, row := r, byte := b } := by
  let tile := p.tileAt t
  let v := r * tile.pitch + b
  have narrow : b < tile.pitch := Nat.lt_of_lt_of_le byte fits
  have rowDiv : v / tile.pitch = r := by
    rw [show v = b + r * tile.pitch from Nat.add_comm .., Nat.add_mul_div_right _ _ (by omega), Nat.div_eq_of_lt narrow,
      Nat.zero_add]
  have byteMod : v % tile.pitch = b := by
    rw [show v = r * tile.pitch + b from rfl, Nat.mul_add_mod_self_right, Nat.mod_eq_of_lt narrow]
  have window : tile.offset + v < p.windowEnd tile := by
    have next : (r + 1) * tile.pitch ≤ p.rows tile * tile.pitch := Nat.mul_le_mul_right _ row
    rw [Nat.succ_mul] at next
    unfold Plan.windowEnd
    omega
  have within : tile.offset + v < p.stride := Nat.lt_of_lt_of_le window ends
  have address : p.rowStart s tile r + b = p.ringBase + (s * p.stride + (tile.offset + v)) := by
    unfold Plan.rowStart
    omega
  have slotDiv : (s * p.stride + (tile.offset + v)) / p.stride = s := by
    rw [Nat.add_comm, Nat.add_mul_div_right _ _ (by omega), Nat.div_eq_of_lt within, Nat.zero_add]
  have offsetMod : (s * p.stride + (tile.offset + v)) % p.stride = tile.offset + v := by
    rw [Nat.mul_add_mod_self_right, Nat.mod_eq_of_lt within]
  have ring : p.inRing (p.ringBase + (s * p.stride + (tile.offset + v))) = true := by
    have last : (s + 1) * p.stride ≤ p.slots * p.stride := Nat.mul_le_mul_right _ slot
    rw [Nat.succ_mul] at last
    simp only [Plan.inRing, Bool.and_eq_true, decide_eq_true_eq]
    omega
  have found : p.tileOfOffset (tile.offset + v) = some t :=
    Plan.tileOfOffset_of_window inside apart (Nat.le_add_right ..) window
  rw [address, Plan.locate, if_pos ring]
  simp only [Nat.add_sub_cancel_left, offsetMod, slotDiv, found]
  rw [show tile.offset + v - (p.tileAt t).offset = v from Nat.add_sub_cancel_left ..]
  simp only [show v % (p.tileAt t).pitch = b from byteMod, show v / (p.tileAt t).pitch = r from rowDiv, if_pos byte]

/-! ### The reverse map (R47, R48) -/

theorem Plan.strip_of_stripOf {y σ : Nat} (strip : p.stripOf y = some σ) :
    (p.stripAt σ).first ≤ y ∧ y < (p.stripAt σ).first + (p.stripAt σ).height := by
  obtain ⟨inside, found, -⟩ := List.findIdx?_eq_some_iff_getElem.mp strip
  have here : p.stripAt σ = p.strips[σ] := by simp [Plan.stripAt, inside]
  rw [here]
  simpa using found

variable {t : Tile}

theorem Plan.rowOf_lt {y : Nat} (first : (p.stripAt t.strip).first ≤ y)
    (last : y < (p.stripAt t.strip).first + (p.stripAt t.strip).height) : p.rowOf t y < p.rows t := by
  unfold Plan.rowOf Plan.rows
  dsimp only
  split <;> omega

theorem Plan.lineOf_rowOf {y : Nat} (first : (p.stripAt t.strip).first ≤ y)
    (last : y < (p.stripAt t.strip).first + (p.stripAt t.strip).height) : p.lineOf t (p.rowOf t y) = some y := by
  unfold Plan.lineOf Plan.rowOf
  dsimp only
  split
  · rw [if_neg (by omega)]
    exact congrArg some (by omega)
  · rw [if_neg (by omega)]
    exact congrArg some (by omega)

section
variable {x : Nat} (trims : t.trimLeft + t.trimRight < t.cols) (left : t.x ≤ x) (right : x < t.x + t.active)
include trims left right

theorem Tile.storedCol_active : t.trimLeft ≤ t.storedCol x ∧ t.storedCol x < t.cols - t.trimRight := by
  unfold Tile.active at right
  unfold Tile.storedCol
  split <;> omega

theorem Tile.outputCol_storedCol : t.outputCol (t.storedCol x) = some x := by
  have active := Tile.storedCol_active trims left right
  rw [Tile.outputCol, if_pos (by simpa using active)]
  unfold Tile.active at right
  unfold Tile.storedCol
  split <;> exact congrArg some (by omega)

end
end

/-- Settles O38: the windows of a valid plan are apart, and a row's data bytes fit its pitch. -/
theorem pixelAddressesMapBack : Obligations.PixelAddressesMapBack := by
  intro g planAddr mem s t σ x y valid tilesRead stripsRead p tile slot inside strip same left right
  obtain ⟨-, -, -, -, format, -, tiles, -⟩ := (Staged.failure_eq_none_iff ..).mp valid
  obtain ⟨-, ok, -, pairs⟩ := (Staged.tilesOk_iff stripsRead).mp tiles
  have known : tile ∈ g.tiles := by
    rw [show tile = p.tiles[t] from Plan.tileAt_of_lt inside]
    exact List.getElem_mem inside
  obtain ⟨limits, ends⟩ := ok tile known
  obtain ⟨-, -, -, fits, -, -, -, trims⟩ := (Staged.tileOk_iff stripsRead tile).mp limits
  have bytes : 1 ≤ p.bpp := by
    simp only [Staged.formatOk, Bool.and_eq_true, decide_eq_true_eq] at format
    obtain ⟨⟨⟨⟨⟨-, some_⟩, -⟩, -⟩, -⟩, -⟩ := format
    exact some_
  obtain ⟨first, last⟩ := Plan.strip_of_stripOf strip
  rw [← same] at first last
  obtain ⟨-, active⟩ := Tile.storedCol_active trims left right
  have byte : tile.storedCol x * p.bpp < p.rowLen tile :=
    Nat.mul_lt_mul_of_pos_right (by omega) bytes
  exact ⟨Plan.locate_of_byte slot inside ends (pairs.imp fun h => h.2) (Plan.rowOf_lt first last) byte fits,
    Plan.lineOf_rowOf first last, Tile.outputCol_storedCol trims left right⟩

end Sys2Proof.Machine
end

section
/-! SUPPORT. Classification does not see whether the port is held (sections 1.2 and 1.3), so the grant of a MASK-WRITE's write
may free the port before or after it. -/

namespace Sys2Proof.Machine

section
variable (b : Bool) (d : Dev)

/-! ### The report writer, the return feed, the watch unit -/

theorem Dev.recordDue_holdPort : (d.holdPort b).recordDue = d.recordDue.holdPort b := by
  unfold Dev.recordDue
  rw [show (d.holdPort b).report = d.report from rfl]
  split <;> rfl

theorem Dev.setCause_holdPort (c : Cause) : (d.holdPort b).setCause c = (d.setCause c).holdPort b := by
  unfold Dev.setCause
  rw [show (d.holdPort b).report = d.report from rfl]
  split
  · rfl
  · exact Dev.recordDue_holdPort b { d with report := { d.report with causes := d.report.causes.set c } }

theorem Dev.handProducer_holdPort (v : Nat) : (d.holdPort b).handProducer v = (d.handProducer v).holdPort b := by
  unfold Dev.handProducer
  rw [show (d.holdPort b).report = d.report from rfl]
  dsimp only
  split <;> rfl

theorem Dev.feedApply_holdPort (p : Plan) : (d.holdPort b).feedApply p = (d.feedApply p).holdPort b := by
  unfold Dev.feedApply
  rw [show (d.holdPort b).feed = d.feed from rfl]
  split
  · rfl
  · let refilled : Dev := { d with feed := { d.feed with
      start := p.retStart, stop := p.retEnd, producer := p.retStart, consumer := p.retStart, fifo := []
      drain := d.feed.drain.onRingChange } }
    exact congrArg Dev.drainExamine (Dev.handProducer_holdPort b refilled p.retStart)

theorem Dev.offerConsumer_holdPort (v : Nat) : (d.holdPort b).offerConsumer v = (d.offerConsumer v).holdPort b := by
  unfold Dev.offerConsumer
  rw [show (d.holdPort b).feed = d.feed from rfl]
  dsimp only
  split <;> rfl

theorem Dev.offer_holdPort (e : Entry) : (d.holdPort b).offer e = (d.offer e).holdPort b := by
  unfold Dev.offer
  rw [show (d.holdPort b).admits e = d.admits e from rfl]
  split <;> rfl

theorem Dev.watchHit_holdPort (id a : Nat) (bytes : List Byte) :
    (d.holdPort b).watchHit id a bytes = (d.watchHit id a bytes).holdPort b := by
  have offered (value : List Byte) (t : HeadTime) (d : Dev) : (d.holdPort b).offerWatch id value t =
      ((d.offerWatch id value t).1.holdPort b, (d.offerWatch id value t).2) := by
    unfold Dev.offerWatch
    rw [show (d.holdPort b).downlink = d.downlink from rfl, show (d.holdPort b).admits _ = d.admits _ from rfl]
    split
    · rfl
    · split <;> rfl
  unfold Dev.watchHit
  rw [show (d.holdPort b).watch = d.watch from rfl]
  split
  · rfl
  · unfold Dev.judgeHit
    rw [offered]
    dsimp only
    split <;> rfl

theorem Dev.seedHit_holdPort (a : Nat) (bytes : List Byte) :
    (d.holdPort b).seedHit a bytes = (d.seedHit a bytes).holdPort b := by
  unfold Dev.seedHit
  rw [show (d.holdPort b).watch = d.watch from rfl]
  split <;> rfl

/-! ### The readers -/

theorem Dev.replayExamine_holdPort : (d.holdPort b).replayExamine = d.replayExamine.holdPort b := by
  rw [Dev.replayExamine_congr (d := d) (e := d.holdPort b) rfl rfl rfl,
    show d.replayExamine = { d with replay := d.replayExamine.replay } from Dev.replayExamine_congr rfl rfl rfl] <;> rfl

theorem Dev.liveExamine_holdPort : (d.holdPort b).liveExamine = d.liveExamine.holdPort b := by
  rw [Dev.liveExamine_congr (d := d) (e := d.holdPort b) rfl rfl rfl rfl,
    show d.liveExamine = { d with live := d.liveExamine.live } from Dev.liveExamine_congr rfl rfl rfl rfl] <;> rfl

theorem Dev.enterSending_holdPort (r : ReplayReq) (s : Nat) :
    (d.holdPort b).enterSending r s = (d.enterSending r s).holdPort b := by
  rw [Dev.enterSending, Dev.enterSending, ← Dev.replayExamine_holdPort] <;> rfl

theorem Dev.startRequest_holdPort (r : ReplayReq) : (d.holdPort b).startRequest r = (d.startRequest r).holdPort b := by
  unfold Dev.startRequest
  rw [show (d.holdPort b).ring = d.ring from rfl]
  split
  · rfl
  · split
    · rfl
    · split
      · rfl
      · exact Dev.enterSending_holdPort ..

theorem Dev.finishRequest_holdPort (c : CurrentReq) (e : Entry) :
    ((d.holdPort b).enqueue e).finishRequest c = ((d.enqueue e).finishRequest c).holdPort b := by
  rw [Dev.finishRequest_eq, Dev.finishRequest_eq] <;> rfl

theorem Dev.replaySettle_holdPort : (d.holdPort b).replaySettle = d.replaySettle.holdPort b := by
  have pumped (n : Nat) : ∀ d : Dev, (d.holdPort b).replayPump n = (d.replayPump n).holdPort b := by
    induction n with
    | zero => exact fun d => rfl
    | succ n ih =>
      intro d
      rw [Dev.replayPump, Dev.replayPump, show (d.holdPort b).replay = d.replay from rfl]
      split
      · split
        · rfl
        · next r rest queue =>
          have started := Dev.startRequest_holdPort b { d with replay := { d.replay with queue := rest } } r
          exact (congrArg (Dev.replayPump n) started).trans (ih _)
      · next c current =>
        split
        · rfl
        · rfl
        · next st ends =>
          rw [show (d.holdPort b).admits (c.endEntry st) = d.admits (c.endEntry st) from rfl]
          split
          · rw [Dev.finishRequest_holdPort, ih]
          · rfl
  exact pumped _ d

/-! ### The plan unit -/

/-- The block as apply leaves it before the return feed and the replay reader follow. -/
def Dev.applied (w : PendingPlan) (d : Dev) : Dev := { d with
  plan := { d.plan with working := some { plan := w.plan, seq := w.seq }, pending := none }
  tracker := { d.tracker with ctx0 := none, ctx1 := none, order := [] }
  replay := d.replay.allEnded
  live := d.live.dropFrames
  ring := d.ring.cleared }

theorem Dev.apply_holdPort (w : PendingPlan) : (d.holdPort b).apply w = (d.apply w).holdPort b := by
  have parts (d : Dev) : d.apply w = ((d.applied w).feedApply w.plan).replaySettle := Dev.apply_eq ..
  rw [parts, parts, show (d.holdPort b).applied w = (d.applied w).holdPort b from rfl, Dev.feedApply_holdPort,
    Dev.replaySettle_holdPort]

theorem Dev.rejectCommit_holdPort (reason : Group) (seq : BitVec 16) :
    (d.holdPort b).rejectCommit reason seq = (d.rejectCommit reason seq).holdPort b :=
  let counted : Dev := { d with
    plan := { d.plan with last := .rejected seq reason }
    counters := { d.counters with rejectedCommits := satInc d.counters.rejectedCommits } }
  Dev.setCause_holdPort b counted .commit

theorem Dev.acceptCommit_holdPort (p : Plan) (seq : BitVec 16) :
    (d.holdPort b).acceptCommit p seq = (d.acceptCommit p seq).holdPort b := by
  unfold Dev.acceptCommit
  rw [show (d.holdPort b).plan = d.plan from rfl]
  dsimp only
  split
  · let accepted : Dev := { d with
      plan := { d.plan with last := .accepted seq p.clampSet }
      timing := { d.timing with
        nextAnchor := some (d.timing.now + BitVec.ofNat 32 p.clamp.period), inGroup := [] } }
    exact Dev.apply_holdPort b accepted { plan := p.clamp, seq := seq, at_ := d.timing.now }
  · rfl

theorem Dev.takeCommit_holdPort : (d.holdPort b).takeCommit = d.takeCommit.holdPort b := by
  unfold Dev.takeCommit
  rw [show (d.holdPort b).plan = d.plan from rfl, show (d.holdPort b).mem.planAddr = d.mem.planAddr from rfl,
    show (d.holdPort b).mem.memSize = d.mem.memSize from rfl]
  dsimp only
  split
  · exact Dev.rejectCommit_holdPort ..
  · exact Dev.acceptCommit_holdPort ..

theorem Dev.planPiece_holdPort (off : Nat) (bytes : List Byte) :
    (d.holdPort b).planPiece off bytes = (d.planPiece off bytes).holdPort b := by
  have commit (d : Dev) : (d.holdPort b).commitPart off bytes = (d.commitPart off bytes).holdPort b := by
    unfold Dev.commitPart
    split
    · exact Dev.takeCommit_holdPort b (d.shadowBytes off bytes)
    · rfl
  have acknowledge (d : Dev) : (d.holdPort b).ackPart off bytes = (d.ackPart off bytes).holdPort b := by
    unfold Dev.ackPart
    split <;> rfl
  have consume (d : Dev) : (d.holdPort b).consumedPart off bytes = (d.consumedPart off bytes).holdPort b := by
    unfold Dev.consumedPart
    rw [show (d.holdPort b).plan = d.plan from rfl]
    split
    · exact Dev.offerConsumer_holdPort ..
    · rfl
  rw [Dev.planPiece_eq, Dev.planPiece_eq, commit, acknowledge, consume]

/-! ### The progress tracker -/

theorem Dev.closeFrame_holdPort (p : Plan) (i : CtxId) (c : Context) :
    (d.holdPort b).closeFrame p i c = (d.closeFrame p i c).holdPort b := by
  have shut : (d.holdPort b).shutFrame i c = (d.shutFrame i c).holdPort b := by cases i <;> rfl
  have closed (s : Nat) (d : Dev) : (d.holdPort b).replayClosed s = (d.replayClosed s).holdPort b := by
    unfold Dev.replayClosed
    rw [show (d.holdPort b).replay = d.replay from rfl]
    split
    · rfl
    · split
      · exact Dev.enterSending_holdPort ..
      · rfl
  rw [Dev.closeFrame, Dev.closeFrame, ← closed, ← Dev.offer_holdPort, shut] <;> rfl

theorem Dev.closeCheck_holdPort (p : Plan) (i : CtxId) : (d.holdPort b).closeCheck p i = (d.closeCheck p i).holdPort b := by
  unfold Dev.closeCheck
  rw [show (d.holdPort b).tracker = d.tracker from rfl]
  split
  · rfl
  · split
    · exact Dev.closeFrame_holdPort ..
    · rfl

theorem Dev.moveFront_holdPort (p : Plan) (i : CtxId) (t : HeadTime) (q : Piece) :
    (d.holdPort b).moveFront p i t q = (d.moveFront p i t q).holdPort b := by
  have moved (f : Front → Front) : (d.holdPort b).updFront i q.tile f = (d.updFront i q.tile f).holdPort b := by
    cases i <;> rfl
  unfold Dev.moveFront
  dsimp only
  rw [moved, ← Dev.liveExamine_holdPort]
  split
  · rw [Dev.closeCheck_holdPort]
  · rfl

theorem Dev.trackerPiece_holdPort (p : Plan) (t : HeadTime) (q : Piece) :
    (d.holdPort b).trackerPiece p t q = (d.trackerPiece p t q).holdPort b := by
  have judged (i : CtxId) (c : Context) : (d.holdPort b).judgePiece p i c t q = (d.judgePiece p i c t q).holdPort b := by
    unfold Dev.judgePiece
    dsimp only
    split
    · rfl
    · split
      · exact Dev.moveFront_holdPort ..
      · split
        · exact Dev.moveFront_holdPort b (d.addDamage p q.slot q.tile _ _) ..
        · split
          · split
            · exact Dev.moveFront_holdPort b (d.addDamage p q.slot q.tile _ _) ..
            · exact Dev.moveFront_holdPort b ((d.addDamage p q.slot q.tile _ _).addDamage p q.slot q.tile _ _) ..
          · cases i <;> rfl
  unfold Dev.trackerPiece
  rw [show (d.holdPort b).ring = d.ring from rfl, show (d.holdPort b).tracker = d.tracker from rfl]
  dsimp only
  split
  · rfl
  · rfl
  · split
    · rfl
    · split
      · rfl
      · exact judged ..

/-! ### Classification (R4 to R8) -/

theorem Dev.takePiece_holdPort (plan : Option Plan) (w : Watch) (a : Nat) (bytes : List Byte) (piece : Nat × List Byte) :
    (d.holdPort b).takePiece plan w a bytes piece = (d.takePiece plan w a bytes piece).holdPort b := by
  have toPlan : (d.holdPort b).toPlanUnit piece.1 piece.2 = (d.toPlanUnit piece.1 piece.2).holdPort b := by
    unfold Dev.toPlanUnit
    rw [show (d.holdPort b).mem.planAddr = d.mem.planAddr from rfl]
    split
    · exact Dev.planPiece_holdPort ..
    · rfl
  have toTracker (d : Dev) : (d.holdPort b).toTracker plan piece.1 piece.2 = (d.toTracker plan piece.1 piece.2).holdPort b := by
    unfold Dev.toTracker
    split
    · rfl
    · exact List.foldl_hom (Dev.holdPort b) fun e q => (Dev.trackerPiece_holdPort b e ..)
  have toWatches (d : Dev) : (d.holdPort b).toWatches w a bytes piece.1 piece.2 =
      (d.toWatches w a bytes piece.1 piece.2).holdPort b := by
    have hits : ∀ (ids : List Nat) (d : Dev), ids.foldl (fun d id => d.watchHit id a bytes) (d.holdPort b) =
        (ids.foldl (fun d id => d.watchHit id a bytes) d).holdPort b := fun ids d =>
      List.foldl_hom (Dev.holdPort b) fun e id => Dev.watchHit_holdPort b e ..
    unfold Dev.toWatches
    dsimp only
    rw [hits]
    split
    · exact Dev.seedHit_holdPort ..
    · rfl
  rw [Dev.takePiece, Dev.takePiece, toPlan, toTracker, toWatches]

theorem Dev.classify_holdPort (a : Nat) (bytes : List Byte) :
    (d.holdPort b).classify a bytes = (d.classify a bytes).holdPort b :=
  List.foldl_hom (Dev.holdPort b) fun e _ => Dev.takePiece_holdPort b e ..

end
end Sys2Proof.Machine
end

section
/-! SUPPORT. What classification hands a write to (section 1.2): O18. -/

namespace Sys2Proof.Machine

/-! ### Tracker pieces (R45, R46) -/

section
variable {p : Plan}

/-- The bytes of one row are one piece, unless the next piece goes on where they end. -/
theorem Plan.trackerPieces_row (m : Nat) (rest : List Piece) (n : Nat) : ∀ (a : Nat) (l : Loc),
    (∀ j, j < n + 1 → p.locate (a + j) = some { l with byte := l.byte + j }) → p.trackerPieces (a + (n + 1)) m = rest →
    (∀ q qs, rest = q :: qs → ¬(q.slot = l.slot ∧ q.tile = l.tile ∧ q.row = l.row ∧ q.first = l.byte + (n + 1))) →
    p.trackerPieces a (n + 1 + m) =
      { slot := l.slot, tile := l.tile, row := l.row, first := l.byte, stop := l.byte + (n + 1) } :: rest := by
  induction n with
  | zero =>
    intro a l row behind apart
    have here : p.locate a = some l := row 0 (Nat.succ_pos 0)
    rw [Nat.zero_add, Nat.add_comm 1 m, Plan.trackerPieces, here, behind]
    cases rest with
    | nil => rfl
    | cons q qs => exact if_neg (apart q qs rfl)
  | succ n ih =>
    intro a l row behind apart
    have here : p.locate a = some l := row 0 (Nat.succ_pos _)
    have later := ih (a + 1) { l with byte := l.byte + 1 }
      (fun j inside => by
        have := row (j + 1) (Nat.succ_lt_succ inside)
        rwa [← Nat.add_assoc, Nat.add_right_comm, ← Nat.add_assoc, Nat.add_right_comm l.byte] at this)
      (by rw [← behind]; congr 1; omega)
      (fun q qs is => by
        have := apart q qs is
        rwa [Nat.add_comm (n + 1) 1, ← Nat.add_assoc] at this)
    rw [show n + 1 + 1 + m = n + 1 + m + 1 by omega, Plan.trackerPieces, here, later]
    have stop : l.byte + 1 + (n + 1) = l.byte + (n + 1 + 1) := by omega
    exact (if_pos ⟨rfl, rfl, rfl, rfl⟩).trans
      (congrArg (fun s => Piece.mk l.slot l.tile l.row l.byte s :: rest) stop)

/-- Bytes outside all tiles or in padding make no piece. -/
theorem Plan.trackerPieces_gap (m : Nat) (g : Nat) : ∀ a, (∀ j, j < g → p.locate (a + j) = none) →
    p.trackerPieces a (g + m) = p.trackerPieces (a + g) m := by
  induction g with
  | zero => intro a _; rw [Nat.zero_add, Nat.add_zero]
  | succ g ih =>
    intro a nowhere
    have here : p.locate a = none := nowhere 0 (Nat.succ_pos g)
    rw [Nat.add_right_comm, Plan.trackerPieces, here]
    dsimp only
    rw [ih (a + 1) fun j inside => by rw [Nat.add_assoc, Nat.add_comm 1]; exact nowhere (j + 1) (Nat.succ_lt_succ inside),
      Nat.add_assoc, Nat.add_comm 1]

/-- The ring of a plan as an address range. -/
def Plan.ringRange (p : Plan) : Nat × Nat := (p.ringBase, p.ringBase + p.slots * p.stride)

theorem Plan.inRing_iff {a : Nat} : p.inRing a = true ↔ p.ringRange.1 ≤ a ∧ a < p.ringRange.2 := by
  simp [Plan.inRing, Plan.ringRange]

theorem Plan.inRing_of_locate {a : Nat} {l : Loc} (found : p.locate a = some l) : p.inRing a = true := by
  unfold Plan.locate at found
  split at found
  · next inside => exact inside
  · cases found

theorem Plan.trackerPieces_apart {a n : Nat} (apart : Apart a n p.ringRange) : p.trackerPieces a n = [] := by
  have nowhere (j : Nat) (inside : j < n) : p.locate (a + j) = none := by
    refine if_neg fun here => ?_
    have ring := Plan.inRing_iff.mp here
    unfold Apart at apart
    omega
  have gone := Plan.trackerPieces_gap 0 n a nowhere
  rwa [Nat.add_zero] at gone

end

/-! ### The pieces of a write off the plan region and the ring -/

theorem Adjoin.stop_le {k : Nat} {ps : List (Nat × List Byte)} (h : Adjoin k ps) : ∀ x ∈ ps,
    k ≤ x.1 ∧ x.1 + x.2.length ≤ k + (ps.flatMap fun y => y.2).length := by
  induction ps generalizing k with
  | nil => simp
  | cons y ps ih =>
    obtain ⟨start, -, rest⟩ := h
    rw [List.flatMap_cons, List.length_append]
    refine List.forall_mem_cons.mpr ⟨by omega, fun x hx => ?_⟩
    have := ih rest x hx
    omega

/-- What is done at the piece that holds an address is done once, and only if the pieces hold it. -/
theorem foldl_at_piece {f : Dev → Dev} {g : Dev → Nat × List Byte → Dev} {x : Nat} {ps : List (Nat × List Byte)}
    (acts : ∀ q ∈ ps, ∀ e, g e q = if q.1 ≤ x ∧ x < q.1 + q.2.length then f e else e) : ∀ {k : Nat}, Adjoin k ps →
    ∀ e, ps.foldl g e = if k ≤ x ∧ x < k + (ps.flatMap fun y => y.2).length then f e else e := by
  induction ps with
  | nil =>
    intro k _ e
    rw [if_neg (by rw [List.flatMap_nil, List.length_nil]; omega)]
    rfl
  | cons q qs ih =>
    intro k adjoin e
    obtain ⟨head, others⟩ := List.forall_mem_cons.mp acts
    obtain ⟨start, -, rest⟩ := adjoin
    rw [List.foldl_cons, head, ih others rest, List.flatMap_cons, List.length_append]
    by_cases here : q.1 ≤ x ∧ x < q.1 + q.2.length
    · rw [if_pos here, if_neg (by omega), if_pos (by omega)]
    · rw [if_neg here]
      exact if_congr (by omega) rfl rfl

section
variable {d : Dev} {a : Nat} {bytes : List Byte}

theorem Dev.toTracker_apart {plan : Option Plan} {k : Nat} {piece : List Byte}
    (off : ∀ p, plan = some p → Apart k piece.length p.ringRange) : d.toTracker plan k piece = d := by
  unfold Dev.toTracker
  split
  · rfl
  · next p => rw [Plan.trackerPieces_apart (off p rfl)] <;> rfl

/-- A write off the plan region and the ring is the watch unit's alone. -/
theorem Dev.classify_toWatches (offPlan : Apart a bytes.length d.mem.planRegion)
    (offRing : ∀ p, d.plan? = some p → Apart a bytes.length p.ringRange) :
    d.classify a bytes = (d.pieces a bytes).foldl (fun e q => e.toWatches d.watch a bytes q.1 q.2) d := by
  have pieces := adjoin_cutBytes (isBoundary d.regions) a bytes
  have within := pieces.stop_le
  have some_ := pieces.ne_nil
  rw [flatMap_cutBytes] at within
  have each : ∀ ps : List (Nat × List Byte), (∀ q ∈ ps, (a ≤ q.1 ∧ q.1 + q.2.length ≤ a + bytes.length) ∧ q.2 ≠ []) →
      ∀ e : Dev, e.mem = d.mem → ps.foldl (fun e q => e.takePiece d.plan? d.watch a bytes q) e =
        ps.foldl (fun e q => e.toWatches d.watch a bytes q.1 q.2) e := by
    intro ps
    induction ps with
    | nil => exact fun _ e _ => rfl
    | cons q qs ih =>
      intro inside e same
      obtain ⟨⟨⟨low, high⟩, more⟩, others⟩ := List.forall_mem_cons.mp inside
      have positive := List.length_pos_iff.mpr more
      have taken : e.takePiece d.plan? d.watch a bytes q = e.toWatches d.watch a bytes q.1 q.2 := by
        unfold Apart MemPath.planRegion at offPlan
        dsimp only at offPlan
        rw [Dev.takePiece, Dev.toPlanUnit_apart (by rw [same]; omega), Dev.toTracker_apart]
        intro p planned
        have := offRing p planned
        unfold Apart at this ⊢
        omega
      rw [List.foldl_cons, List.foldl_cons, taken]
      exact ih others _ (by simpa using same)
  exact each _ (fun q hq => ⟨within q hq, some_ q hq⟩) d rfl

end

end Sys2Proof.Machine
end

section
/-! SUPPORT. Classified writes, one region at a time, and the grants that classify (sections 1.2 and 1.3): O18. -/

namespace Sys2Proof.Machine

section
variable {d : Dev} {a : Nat} {bytes : List Byte}

theorem Dev.classify_apart (offPlan : Apart a bytes.length d.mem.planRegion)
    (offRing : ∀ p, d.plan? = some p → Apart a bytes.length p.ringRange)
    (unwatched : ∀ r ∈ d.watch.windows, Apart a bytes.length r) : d.classify a bytes = d := by
  rw [Dev.classify_toWatches offPlan offRing]
  refine List.foldl_fixed' (fun q => ?_) _
  exact Dev.toWatches_apart unwatched q.1 q.2

theorem Dev.writeHandle_apart (offRing : ∀ p, d.plan? = some p → Apart a bytes.length p.ringRange) :
    d.writeHandle a bytes.length = [] := by
  unfold Dev.writeHandle
  split
  · rfl
  · next p planned => rw [Plan.trackerPieces_apart (offRing p planned)] <;> rfl

/-! ### Pieces of the plan region (R6) -/

/-- Where the model cuts a write, for the plan region at its ends and at those of its parts. -/
theorem Dev.uncut_of_planEnds (ends : ∀ k ∈ [0, 0x1000, 0x1100, 0x2000, 0x2400, 65536],
      ¬(a < d.mem.planAddr + k ∧ d.mem.planAddr + k < a + bytes.length))
    (offRing : ∀ p, d.plan? = some p → Apart a bytes.length p.ringRange)
    (unwatched : ∀ r ∈ d.watch.windows, Apart a bytes.length r) : ∀ r ∈ d.regions, Uncut a bytes.length r := by
  intro r hr
  simp only [Dev.regions, MemPath.planRegion, MemPath.planParts, List.mem_append, List.mem_cons, List.not_mem_nil,
    or_false, Option.mem_toList, Option.map_eq_some_iff] at hr
  simp only [List.mem_cons, List.not_mem_nil, or_false, forall_eq_or_imp, forall_eq, Nat.add_zero] at ends
  obtain ⟨e0, e1, e2, e3, e4, e5⟩ := ends
  rcases hr with ((rfl | rfl | rfl | rfl) | ⟨p, planned, rfl⟩) | watched
  · exact ⟨e0, e5⟩
  · exact ⟨e0, e1⟩
  · exact ⟨e1, e2⟩
  · exact ⟨e3, e4⟩
  · exact Apart.uncut (offRing p planned) (Nat.le_add_right ..)
  · exact (unwatched r watched).uncut (Watch.le_of_mem_windows watched)

theorem Dev.pieces_of_uncut (some_ : bytes ≠ []) (uncut : ∀ r ∈ d.regions, Uncut a bytes.length r) :
    d.pieces a bytes = [(a, bytes)] := by
  refine cutBytes_single some_ fun k above below => ?_
  rw [isBoundary, List.any_eq_false]
  intro r hr
  obtain ⟨first, last⟩ := uncut r hr
  simp only [Bool.or_eq_true, decide_eq_true_eq]
  omega

/-- A piece in the plan region is the plan unit's alone. -/
theorem Dev.takePiece_plan {plan : Option Plan} {w : Watch} {k : Nat} {piece : List Byte} (inside : k < 65536)
    (offRing : ∀ p, plan = some p → Apart (d.mem.planAddr + k) piece.length p.ringRange)
    (unwatched : ∀ r ∈ w.windows, Apart a bytes.length r) :
    d.takePiece plan w a bytes (d.mem.planAddr + k, piece) = d.planPiece k piece := by
  rw [Dev.takePiece, Dev.toWatches_apart unwatched, Dev.toTracker_apart offRing]
  refine (if_pos ⟨Nat.le_add_right .., Nat.add_lt_add_left inside _⟩).trans ?_
  rw [Nat.add_sub_cancel_left]

/-! ### Watched ranges (R182, R184) -/

theorem Watch.hitIds_of_single {w : Watch} {id : Nat} {e : WatchEntry} {n k len : Nat} (armed : w.entry id = some e)
    (others : ∀ j f, w.entry j = some f → j ≠ id → Apart a n (f.addr, f.addr + f.len))
    (meets : overlapping a n e.addr e.len = true) :
    w.hitIds a n k len = if k ≤ max a e.addr ∧ max a e.addr < k + len then [id] else [] := by
  have inside : id < w.table.length := by
    by_contra beyond
    rw [Watch.entry, List.getElem?_eq_none (by omega)] at armed
    cases armed
  have only : w.hitIds a n k len = (List.range w.table.length).filter fun j =>
      decide (k ≤ max a e.addr ∧ max a e.addr < k + len) && (j == id) := by
    refine List.filter_congr fun j _ => ?_
    by_cases same : j = id
    · subst same
      simp [armed, meets]
    · cases other : w.entry j with
      | none => simp [same]
      | some f => simp [overlapping_apart (others j f other same), same]
  rw [only]
  split
  · next here =>
    simp only [here, and_self, decide_true, Bool.true_and]
    rw [List.filter_beq, List.count_eq_one_of_mem List.nodup_range (List.mem_range.mpr inside)]
    rfl
  · next elsewhere => simp only [elsewhere, decide_false, Bool.false_and, List.filter_false]

theorem overlapping_iff {a n w len : Nat} : overlapping a n w len = true ↔ (a < w + len ∧ w < a + n) ∧ 0 < n ∧ 0 < len := by
  simp [overlapping, and_assoc]

/-- A write on one armed range is one hit on its entry. -/
theorem Dev.classify_hit {id : Nat} {e : WatchEntry} (armed : d.watch.entry id = some e)
    (offPlan : Apart a bytes.length d.mem.planRegion)
    (offRing : ∀ p, d.plan? = some p → Apart a bytes.length p.ringRange)
    (others : ∀ j f, d.watch.entry j = some f → j ≠ id → Apart a bytes.length (f.addr, f.addr + f.len))
    (unseeded : ∀ s, d.watch.seeding = some s → Apart a bytes.length (s.addr, s.addr + s.len))
    (meets : overlapping a bytes.length e.addr e.len = true) : d.classify a bytes = d.watchHit id a bytes := by
  have acts (q : Nat × List Byte) (x : Dev) : x.toWatches d.watch a bytes q.1 q.2 =
      if q.1 ≤ max a e.addr ∧ max a e.addr < q.1 + q.2.length then x.watchHit id a bytes else x := by
    rw [Dev.toWatches, Watch.hitIds_of_single armed others meets, Watch.seedHit_apart unseeded, if_neg Bool.false_ne_true]
    split <;> rfl
  obtain ⟨⟨below, above⟩, some_, wide⟩ := overlapping_iff.mp meets
  rw [Dev.classify_toWatches offPlan offRing, Dev.pieces, foldl_at_piece (fun q _ x => acts q x) (adjoin_cutBytes ..), flatMap_cutBytes,
    if_pos (by omega)]

/-- A write on the range of the seeding record is one hit on it. -/
theorem Dev.classify_seed {s : Seeding} (seeding : d.watch.seeding = some s)
    (offPlan : Apart a bytes.length d.mem.planRegion)
    (offRing : ∀ p, d.plan? = some p → Apart a bytes.length p.ringRange)
    (unarmed : ∀ j f, d.watch.entry j = some f → Apart a bytes.length (f.addr, f.addr + f.len))
    (meets : overlapping a bytes.length s.addr s.len = true) : d.classify a bytes = d.seedHit a bytes := by
  have acts (q : Nat × List Byte) (x : Dev) : x.toWatches d.watch a bytes q.1 q.2 =
      if q.1 ≤ max a s.addr ∧ max a s.addr < q.1 + q.2.length then x.seedHit a bytes else x := by
    rw [Dev.toWatches, Watch.hitIds_apart unarmed]
    simp only [Watch.seedHit, seeding, meets, Bool.true_and, Bool.and_eq_true, decide_eq_true_eq, List.foldl_nil]
  obtain ⟨⟨below, above⟩, some_, wide⟩ := overlapping_iff.mp meets
  rw [Dev.classify_toWatches offPlan offRing, Dev.pieces, foldl_at_piece (fun q _ x => acts q x) (adjoin_cutBytes ..), flatMap_cutBytes,
    if_pos (by omega)]

/-! ### Tile rows (R5, R45, R46) -/

theorem Dev.bindingOf_of_binds {s : Nat} {b : Option Nat} (binds : d.Binds s b) : d.bindingOf s = b := by
  rcases binds with ⟨idle, rfl⟩ | ⟨i, c, filling, named, slot, only, rfl⟩
  · exact if_neg idle
  · rw [Dev.bindingOf, if_pos filling, Tracker.boundTo_of_unique named slot only, Option.bind_some, named] <;> rfl

/-- A write in the ring whose ends the ring holds is the tracker's alone, in one piece of the classifier. -/
theorem Dev.classify_tracker {p : Plan} (some_ : bytes ≠ []) (planned : d.plan? = some p)
    (offPlan : Apart a bytes.length d.mem.planRegion) (unwatched : ∀ r ∈ d.watch.windows, Apart a bytes.length r)
    (first : p.inRing a = true) (last : p.inRing (a + (bytes.length - 1)) = true) : d.classify a bytes =
      (p.trackerPieces a bytes.length).foldl (fun e q => e.trackerPiece p e.timing.now q) d := by
  have positive := List.length_pos_iff.mpr some_
  have low := Plan.inRing_iff.mp first
  have high := Plan.inRing_iff.mp last
  have uncut : ∀ r ∈ d.regions, Uncut a bytes.length r := by
    intro r hr
    rcases Dev.mem_regions hr with ⟨begins, le, ends⟩ | ⟨p', same, rfl⟩ | watched
    · unfold Apart MemPath.planRegion at offPlan
      dsimp only at offPlan
      exact Apart.uncut (by unfold Apart; omega) le
    · rw [planned] at same
      cases same
      unfold Uncut
      unfold Plan.ringRange at low high
      dsimp only at low high ⊢
      omega
    · exact (unwatched r watched).uncut (Watch.le_of_mem_windows watched)
  have off : a < d.mem.planAddr ∨ d.mem.planAddr + 65536 ≤ a := by
    unfold Apart MemPath.planRegion at offPlan
    dsimp only at offPlan
    omega
  rw [Dev.classify_single some_ uncut, Dev.takePiece, Dev.toPlanUnit_apart off, Dev.toWatches_apart unwatched, planned] <;> rfl

end

end Sys2Proof.Machine
end

section
/-! SUPPORT. Classified writes handed on (sections 1.2 and 1.3): O18. -/

namespace Sys2Proof.Machine

/-! ### A write of the plan region, within one part and across the end of the staging area (R6, R18) -/

theorem Apart.sub {a n k m : Nat} {r : Nat × Nat} (h : Apart a n r) (low : a ≤ k) (high : k + m ≤ a + n) : Apart k m r := by
  unfold Apart at h ⊢
  omega

section
variable {d : Dev} {a k : Nat} {bytes : List Byte} (address : a = d.mem.planAddr + k)
  (offRing : ∀ p, d.plan? = some p → Apart a bytes.length p.ringRange)
  (unwatched : ∀ r ∈ d.watch.windows, Apart a bytes.length r)
include address offRing unwatched

theorem Dev.classify_planPart (some_ : bytes ≠ []) (inside : k < 65536)
    (ends : ∀ b ∈ [0x1000, 0x1100, 0x2000, 0x2400, 65536], k < b → k + bytes.length ≤ b) :
    d.classify a bytes = d.planPiece k bytes := by
  have uncut := Dev.uncut_of_planEnds (d := d) (a := a) (bytes := bytes) (fun b known => by
    rcases List.mem_cons.mp known with rfl | known
    · omega
    · have := ends b known
      omega) offRing unwatched
  subst address
  rw [Dev.classify, Dev.pieces_of_uncut some_ uncut]
  exact Dev.takePiece_plan inside offRing unwatched

/-- A write across the end of the staging area is cut there, and its two pieces go one after the other (log 14). -/
theorem Dev.classify_across (below : k < 0x1000) (above : 0x1000 < k + bytes.length) (end_ : k + bytes.length ≤ 0x1100) :
    d.classify a bytes =
      (d.planPiece k (bytes.take (0x1000 - k))).planPiece 0x1000 (bytes.drop (0x1000 - k)) := by
  let x := bytes.take (0x1000 - k)
  let y := bytes.drop (0x1000 - k)
  have lengthX : x.length = 0x1000 - k := by rw [List.length_take]; omega
  have lengthY : y.length = k + bytes.length - 0x1000 := by rw [List.length_drop]; omega
  have someX : x ≠ [] := List.ne_nil_of_length_pos (by omega)
  have someY : y ≠ [] := List.ne_nil_of_length_pos (by omega)
  have boundary : isBoundary d.regions (a + x.length) = true := by
    refine List.any_eq_true.mpr ⟨(d.mem.planAddr, d.mem.planAddr + 0x1000), ?_, ?_⟩
    · simp [Dev.regions, MemPath.planParts]
    · simp only [Bool.or_eq_true, decide_eq_true_eq]
      omega
  have single (b : Nat) (part : List Byte) (someP : part ≠ []) (low : a ≤ b) (high : b + part.length ≤ a + bytes.length)
      (ends : ∀ k ∈ [0, 0x1000, 0x1100, 0x2000, 0x2400, 65536],
        ¬(b < d.mem.planAddr + k ∧ d.mem.planAddr + k < b + part.length)) : d.pieces b part = [(b, part)] :=
    Dev.pieces_of_uncut someP (Dev.uncut_of_planEnds ends (fun p planned => (offRing p planned).sub low high)
      fun r watched => (unwatched r watched).sub low high)
  have pieces : d.pieces a bytes = [(a, x), (a + x.length, y)] := by
    have firstPiece := single a x someX le_rfl (by omega) fun b known => by
      simp only [List.mem_cons, List.not_mem_nil, or_false] at known
      omega
    have secondPiece := single (a + x.length) y someY (by omega) (by omega) fun b known => by
      simp only [List.mem_cons, List.not_mem_nil, or_false] at known
      omega
    unfold Dev.pieces at firstPiece secondPiece ⊢
    rw [show bytes = x ++ y from (List.take_append_drop ..).symm, cutBytes_append someX someY boundary, firstPiece,
      secondPiece] <;> rfl
  have first := Dev.takePiece_plan (d := d) (plan := d.plan?) (w := d.watch) (a := a) (bytes := bytes) (k := k) (piece := x)
    (by omega) (fun p planned => (offRing p planned).sub (by omega) (by omega)) unwatched
  have kept : (d.planPiece k x).mem = d.mem := by simp
  have second := Dev.takePiece_plan (d := d.planPiece k x) (plan := d.plan?) (w := d.watch) (a := a) (bytes := bytes)
    (k := 0x1000) (piece := y) (by omega) (fun p planned => by
      rw [kept]
      exact (offRing p planned).sub (by omega) (by omega)) unwatched
  rw [kept, show d.mem.planAddr + 0x1000 = a + x.length by omega] at second
  rw [← address] at first
  rw [Dev.classify, pieces, List.foldl_cons, List.foldl_cons, List.foldl_nil, first, second]

end

/-! ### The grants that classify (R4, R12) -/

section
variable {d : Dev} {q : List Instr} {a : Addr} {bytes : List Byte} (may : d.mayGrant = true)
include may

theorem exec_grant_passingWrite {ident : Nat} (free : d.mem.portHeld = false)
    (waits : d.mem.transit = some ⟨ident, .write a bytes⟩) (turn : d.inserted = none ∨ d.mem.steal < 16) :
    exec .grantDecision ⟨d, q⟩ = .next ⟨Dev.classify a.toNat bytes { d with mem := { d.mem.issue (.passing ident)
      (.write a bytes) (d.writeHandle a.toNat bytes.length) with
        steal := if d.inserted = none then 0 else d.mem.steal + 1, transit := none } }, q⟩ := by
  rw [exec_grantDecision_of_choose may (Dev.choose_passing free waits turn), Dev.grantTo,
    Dev.grantPassing_write (by exact waits)] <;> rfl

theorem exec_grant_remoteWrite (free : d.mem.portHeld = false) (turn : d.mem.transit = none ∨ d.mem.steal = 16)
    (noLive : d.live.fetcher.req = none) (waits : d.remote.req = some ⟨.write, .write a bytes⟩) :
    exec .grantDecision ⟨d, q⟩ = .next ⟨Dev.classify a.toNat bytes { d with
      mem := { d.mem.issue (.remote .write) (.write a bytes) (d.writeHandle a.toNat bytes.length) with steal := 0 }
      remote := { d.remote with req := none } }, q⟩ := by
  rw [exec_grantDecision_of_inserted may free turn (Dev.inserted_remote noLive (by rw [waits]; rfl)), Dev.grantTo,
    Dev.grantRemote, show (d.setSteal 0).remote = d.remote from rfl, waits] <;> rfl

/-- The grant of the MASK-WRITE's write frees the port, and the classifier does not see when. -/
theorem exec_grant_maskWrite (held : d.mem.portHeld = true) (waits : d.remote.req = some ⟨.maskWrite, .write a bytes⟩) :
    exec .grantDecision ⟨d, q⟩ = .next ⟨Dev.classify a.toNat bytes { d with
      mem := { d.mem.issue (.remote .maskWrite) (.write a bytes) (d.writeHandle a.toNat bytes.length) with
        steal := 0, portHeld := false }
      remote := { d.remote with req := none } }, q⟩ := by
  have chosen : d.choose = some (.remote, 0) := by
    rw [Dev.choose_held held, if_pos (by simp [Dev.maskWriteWaits, waits])]
  let issued : Dev := { d with
    mem := { d.mem.issue (.remote .maskWrite) (.write a bytes) (d.writeHandle a.toNat bytes.length) with steal := 0 }
    remote := { d.remote with req := none } }
  have freed : (d.setSteal 0).grantTo .remote = (issued.classify a.toNat bytes).holdPort false := by
    rw [Dev.grantTo, Dev.grantRemote, show (d.setSteal 0).remote = d.remote from rfl, waits] <;> rfl
  rw [exec_grantDecision_of_choose may chosen, freed, ← Dev.classify_holdPort] <;> rfl

end

end Sys2Proof.Machine
end

section
/-! SUPPORT. Classified writes handed on: O18. -/

namespace Sys2Proof.Machine

/-- The known bytes of a seeding record after a write, one by one. -/
theorem overlay_some_eq_range (a : Nat) (bytes : List Byte) (k : Nat) (xs : List (Option Byte)) :
    overlay a (bytes.map some) k xs = (List.range xs.length).map fun i =>
      if a ≤ k + i ∧ k + i < a + bytes.length then some (bytes.getD (k + i - a) 0) else xs.getD i none := by
  refine List.ext_getElem? fun i => ?_
  rw [overlay_getElem?, List.length_map]
  by_cases inside : i < xs.length
  · rw [List.getElem?_eq_getElem inside, List.getElem?_map, List.getElem?_range inside]
    simp only [Option.map_some, List.getD_eq_getElem?_getD, List.getElem?_eq_getElem inside, Option.getD_some]
    split
    · next covered =>
      have within : k + i - a < bytes.length := by omega
      simp only [List.getElem?_map, List.getElem?_eq_getElem within, Option.map_some, Option.getD_some]
    · rfl
  · rw [List.getElem?_eq_none (by omega), List.getElem?_eq_none (by simpa using inside)]
    rfl

section
variable {p : Plan} {a n : Nat} {l : Loc}

/-- Bytes of one row are one tracker piece. -/
theorem Plan.trackerPieces_one (some_ : 1 ≤ n)
    (row : ∀ j, j < n → p.locate (a + j) = some { l with byte := l.byte + j }) :
    p.trackerPieces a n = [{ slot := l.slot, tile := l.tile, row := l.row, first := l.byte, stop := l.byte + n }] := by
  obtain ⟨n, rfl⟩ : ∃ i, n = i + 1 := ⟨n - 1, by omega⟩
  exact Plan.trackerPieces_row 0 [] n a l row rfl (fun q qs is => nomatch is)

/-- Bytes over the end of a row into the next are two. -/
theorem Plan.trackerPieces_two {k m : Nat} (some_ : 1 ≤ k) (le : k ≤ m) (more : m < n)
    (row : ∀ j, j < k → p.locate (a + j) = some { l with byte := l.byte + j })
    (gap : ∀ j, k ≤ j → j < m → p.locate (a + j) = none)
    (next_ : ∀ j, m ≤ j → j < n → p.locate (a + j) = some { l with row := l.row + 1, byte := j - m }) :
    p.trackerPieces a n = [{ slot := l.slot, tile := l.tile, row := l.row, first := l.byte, stop := l.byte + k },
      { slot := l.slot, tile := l.tile, row := l.row + 1, first := 0, stop := n - m }] := by
  have second : p.trackerPieces (a + m) (n - m) =
      [{ slot := l.slot, tile := l.tile, row := l.row + 1, first := 0, stop := 0 + (n - m) }] :=
    Plan.trackerPieces_one (l := { l with row := l.row + 1, byte := 0 }) (by omega) fun j inside => by
      have := next_ (m + j) (by omega) (by omega)
      rw [← Nat.add_assoc, Nat.add_sub_cancel_left] at this
      rw [this, Nat.zero_add]
  have behind : p.trackerPieces (a + k) (m - k + (n - m)) =
      [{ slot := l.slot, tile := l.tile, row := l.row + 1, first := 0, stop := n - m }] := by
    rw [Plan.trackerPieces_gap _ _ _ fun j inside => by rw [Nat.add_assoc]; exact gap (k + j) (by omega) (by omega),
      show a + k + (m - k) = a + m by omega, second, Nat.zero_add]
  obtain ⟨k, rfl⟩ : ∃ i, k = i + 1 := ⟨k - 1, by omega⟩
  rw [show n = k + 1 + (m - (k + 1) + (n - m)) by omega]
  refine (Plan.trackerPieces_row _ _ k a l row behind fun q qs is => ?_).trans ?_
  · obtain ⟨rfl, -⟩ := List.cons.inj is
    rintro ⟨-, -, same, -⟩
    exact absurd same (Nat.succ_ne_self _)
  · rw [show k + 1 + (m - (k + 1) + (n - m)) = n by omega]

end

/-- Settles O18: each grant classifies the block it leaves, and each region's case is one of `Dev.classify_apart` and its
siblings. -/
theorem classifiedWritesAreHandedOn : Obligations.ClassifiedWritesAreHandedOn := by
  intro d q ident a bytes granted may some_ n put ways run base apart offPlan offRing unwatched unseeded
  have positive : 0 < bytes.length := List.length_pos_iff.mpr some_
  have key : run = .next ⟨(granted (d.writeHandle a.toNat n)).classify a.toNat bytes, q⟩ := by
    rcases ways with ⟨free, waits, turn, is⟩ | ⟨free, turn, noLive, waits, is⟩ | ⟨held, waits, is⟩
    · rw [is]
      exact exec_grant_passingWrite may free waits turn
    · rw [is]
      exact exec_grant_remoteWrite may free turn noLive waits
    · rw [is]
      exact exec_grant_maskWrite may held waits
  have form (h : List HandleEntry) : granted h = { d with mem := (granted h).mem, remote := (granted h).remote } ∧
      (granted h).mem.planAddr = base := by
    rcases ways with ⟨-, -, -, is⟩ | ⟨-, -, -, -, is⟩ | ⟨-, -, is⟩
    · rw [is]; exact ⟨rfl, rfl⟩
    · rw [is]; exact ⟨rfl, rfl⟩
    · rw [is]; exact ⟨rfl, rfl⟩
  have released (h : List HandleEntry) : (granted h).resetAsserted = false :=
    (congrArg Dev.resetAsserted (form h).1).trans (Dev.mayGrant_iff.mp may).1
  have planned (h : List HandleEntry) : (granted h).plan? = d.plan? := (congrArg Dev.plan? (form h).1).trans rfl
  have watched (h : List HandleEntry) : (granted h).watch = d.watch := (congrArg Dev.watch (form h).1).trans rfl
  have timed (h : List HandleEntry) : (granted h).timing = d.timing := (congrArg Dev.timing (form h).1).trans rfl
  have noPlan (off : offPlan) (h : List HandleEntry) : Apart a.toNat bytes.length (granted h).mem.planRegion := by
    rw [MemPath.planRegion, (form h).2]
    exact off
  have noRing' (off : offRing) (p : Plan) (is : d.plan? = some p) : Apart a.toNat bytes.length p.ringRange := by
    obtain ⟨w, working, rfl⟩ := Option.map_eq_some_iff.mp is
    exact off w working
  have noRing (off : offRing) (h : List HandleEntry) (p : Plan) (is : (granted h).plan? = some p) :
      Apart a.toNat bytes.length p.ringRange := noRing' off p ((planned h).symm.trans is)
  have noEntry (none_ : unwatched none) (h : List HandleEntry) (j : Nat) (e : WatchEntry)
      (armed : (granted h).watch.entry j = some e) : Apart a.toNat bytes.length (e.addr, e.addr + e.len) := by
    rw [watched] at armed
    exact none_ j e armed (by simp)
  have noSeed (none_ : unseeded) (h : List HandleEntry) (s : Seeding) (is : (granted h).watch.seeding = some s) :
      Apart a.toNat bytes.length (s.addr, s.addr + s.len) := by
    rw [watched] at is
    exact none_ s is
  have noWindow (none_ : unwatched none) (none' : unseeded) (h : List HandleEntry) (r : Nat × Nat)
      (is : r ∈ (granted h).watch.windows) : Apart a.toNat bytes.length r := by
    rcases Watch.mem_windows.mp is with ⟨j, e, armed, rfl⟩ | ⟨s, seeding, rfl⟩
    · exact noEntry none_ h j e armed
    · exact noSeed none' h s seeding
  have quiet (off : offRing) : run = .next ⟨(granted []).classify a.toNat bytes, q⟩ := by
    rw [key, show d.writeHandle a.toNat n = [] from Dev.writeHandle_apart (noRing' off)]
  refine ⟨fun off ring none_ none' => ?_, fun k address ring none_ none' ends inside => ?_,
    fun k address ring none_ none' below above end_ => ?_, fun id e armed off ring others none' wide below above => ?_,
    fun s seeding off ring none_ sized wide below above => ?_, fun w l b working off none_ none' binds => ?_⟩
  · rw [quiet ring, Dev.classify_apart (noPlan off _) (noRing ring _) (noWindow none_ none' _)]
  · rw [quiet ring, exec_stagingWrite (released _), Dev.classify_planPart (by rw [(form _).2]; exact address) (noRing ring _)
      (noWindow none_ none' _) some_ inside ends, BitVec.toNat_ofNat, Nat.mod_eq_of_lt inside]
  · have staged : (BitVec.ofNat 16 k).toNat = k := by rw [BitVec.toNat_ofNat, Nat.mod_eq_of_lt (by omega)]
    rw [quiet ring, exec_stagingWrite (released _), Dev.classify_across (by rw [(form _).2]; exact address) (noRing ring _)
      (noWindow none_ none' _) below above end_, staged]
    exact (exec_stagingWrite (by simpa using released []) 0x1000 _).symm
  · have meets : overlapping a.toNat bytes.length e.addr e.len = true := overlapping_iff.mpr ⟨⟨below, above⟩, positive, wide⟩
    rw [quiet ring, Dev.classify_hit (by rw [watched]; exact armed) (noPlan off _) (noRing ring _) (fun j f other apart => by
      rw [watched] at other
      exact others j f other (by simpa using apart)) (noSeed none' _) meets]
  · have meets : overlapping a.toNat bytes.length s.addr s.len = true := overlapping_iff.mpr ⟨⟨below, above⟩, positive, wide⟩
    have here : (granted []).watch.seeding = some s := by rw [watched]; exact seeding
    rw [quiet ring, Dev.classify_seed here (noPlan off _) (noRing ring _) (noEntry none_ _) meets, Dev.seedHit, here]
    dsimp only
    rw [watched, timed, overlay_some_eq_range, sized]
  · have here : d.plan? = some w.plan := by rw [Dev.plan?, working] <;> rfl
    have tracks (h : List HandleEntry) (first : w.plan.inRing a.toNat = true)
        (last : w.plan.inRing (a.toNat + (bytes.length - 1)) = true) :=
      Dev.classify_tracker some_ ((planned h).trans here) (noPlan off h) (noWindow none_ none' h) first last
    have handle : d.writeHandle a.toNat n = d.handleOf (w.plan.trackerPieces a.toNat n) := by
      rw [Dev.writeHandle, here]
    have binding := Dev.bindingOf_of_binds binds
    refine ⟨fun row => ?_, fun k m someK le more row gap next_ => ?_⟩
    · have pieces := Plan.trackerPieces_one positive row
      have entry : d.writeHandle a.toNat n = [⟨l.slot, b, l.tile, l.row, l.row⟩] := by
        rw [handle, pieces, ← binding] <;> rfl
      have first := Plan.inRing_of_locate (row 0 positive)
      have last := Plan.inRing_of_locate (row (bytes.length - 1) (by omega))
      rw [key, entry, tracks _ first last, pieces, List.foldl_cons, List.foldl_nil, timed]
    · have pieces := Plan.trackerPieces_two someK le more row gap next_
      have entry : d.writeHandle a.toNat n = [⟨l.slot, b, l.tile, l.row, l.row + 1⟩] := by
        rw [handle, pieces, ← binding]
        simp [Dev.handleOf, addHandle]
      have first := Plan.inRing_of_locate (row 0 someK)
      have last := Plan.inRing_of_locate (next_ (bytes.length - 1) (by omega) (by omega))
      rw [key, entry, tracks _ first last, pieces, List.foldl_cons, List.foldl_cons, List.foldl_nil, timed]
      simp only [Dev.trackerPiece_frame, timed]

end Sys2Proof.Machine
end
